-- ==== Sys2Proof/Word.lean ====
section
/-! DEFINITION. The word types of the Nobriz 6240: the byte of a frame, of the configuration image and of the flash,
and the count of the local timebase. -/

namespace Sys2Proof

/-- One byte of a line frame, of the configuration image or of the phrase flash (chapter 11). -/
abbrev Byte := BitVec 8

/-- An instant of the local timebase, counted in sample periods of 1/16,000 s (section 7.2 of 00_scope.md: 16 samples
are one millisecond).  A running timer is held as the instant at which it runs out, so that what is left of it is that
instant less the present one. -/
abbrev Instant := Nat

end Sys2Proof
end

