-- ==== Sys2Proof/Syntax.lean ====
section
/-! DEFINITION. The commands of the block: one constructor of `Instr` per row of spec/opcode_table.json.  A command
is an event the spec names: a change of an input, the expiry of one of the block's timers, the completion of a flash
read, the beginning or the end of a frame on the station line, the taking of a frame from the receive FIFO, or the
delivery of an echo.  Its operands say what the world supplies with the event (levels, bytes read, bytes heard) or
which of several like timers it is. -/

namespace Sys2Proof

/-- A command (event) of the Nobriz 6240, one constructor per row of the opcode table. -/
inductive Instr where
  /-- START_RESET (R179): power-on, or RESET asserted. -/
  | startReset
  /-- RESET_RELEASE (R172): RESET released with the straps NODE0..NODE5 spelling `node` and DSET at `dset` (high = set B). -/
  | resetRelease (node : Nat) (dset : Bool)
  /-- CONFIG_IMAGE_TAKEN (R174): the read of the configuration memory is over; `none` when the memory did not answer. -/
  | configImageTaken (image : Option (List Byte))
  /-- SRV_PULSE (R178): a rising edge on SRV. -/
  | srvPulse
  /-- LISTEN_TIMER_EXPIRY (R175). -/
  | listenTimerExpiry
  /-- ISOLATION_TIMER_EXPIRY (R177). -/
  | isolationTimerExpiry
  /-- FRAME_START (R164): the line is idle and the head of the transmit queue is started; `rivals` are the arbitration
  fields (byte 0: class, then source node) of the frames that other stations start at the same moment. -/
  | frameStart (rivals : List Nat)
  /-- OWN_FRAME_SPOILED (R166): the own frame in transmission ends spoiled; `checkAgreed` tells whether its check agreed here. -/
  | ownFrameSpoiled (checkAgreed : Bool)
  /-- OWN_FRAME_SENT (R166): the own frame in transmission ends unspoiled; `checkAgreed` as above. -/
  | ownFrameSent (checkAgreed : Bool)
  /-- FRAME_RECEIVED (R168): a frame of the line has ended, with these bytes; `spoiled` when another station spoiled it. -/
  | frameReceived (bytes : List Byte) (spoiled : Bool)
  /-- ECHO (R166): the echo in the echo place is delivered. -/
  | echo
  /-- SEIZE_ECHO (R136): the echo delivered is a SEIZE of this node. -/
  | seizeEcho
  /-- ZONE_ASK_ECHO (R141): the echo delivered is a ZONE-ASK of this node. -/
  | zoneAskEcho
  /-- ISOLATION_PROFILE_ECHO (R177): the echo delivered is the isolation PROFILE. -/
  | isolationProfileEcho
  /-- PROFILE_ECHO (R183): the echo delivered is the PROFILE queued on an entry to LISTEN. -/
  | profileEcho
  /-- TIME (R29): the frame at the head of the receive FIFO, a TIME frame, is taken. -/
  | time
  /-- CALL (R4): a CALL frame is taken. -/
  | call
  /-- ANNOUNCE (R50): an ANNOUNCE frame is taken. -/
  | announce
  /-- QUIET (R176): a NODE-CONTROL QUIET is taken. -/
  | quiet
  /-- WAKE (R176): a NODE-CONTROL WAKE is taken. -/
  | wake
  /-- SERVICE_RESET (R178): a NODE-CONTROL SERVICE-RESET is taken. -/
  | serviceReset
  /-- REPLAY_LAST (R52): a NODE-CONTROL REPLAY-LAST is taken. -/
  | replayLast
  /-- STATUS_QUERY (R185): a STATUS-QUERY is taken. -/
  | statusQuery
  /-- PROFILE (R170): a PROFILE of another node is taken. -/
  | profile
  /-- SEIZE (R131): a SEIZE of another node is taken. -/
  | seize
  /-- FREE (R131): a FREE of another node is taken. -/
  | free
  /-- ZONE_ASK (R108): a ZONE-ASK of another node is taken. -/
  | zoneAsk
  /-- ZONE_LEAVE (R119): a ZONE-LEAVE of another node is taken. -/
  | zoneLeave
  /-- ZONE_ANSWER (R141): a ZONE-ANSWER is taken. -/
  | zoneAnswer
  /-- ZONE_REVOKE (R148): a ZONE-REVOKE is taken. -/
  | zoneRevoke
  /-- TICK (R28): one second of the local timebase since the clock was last set or advanced. -/
  | tick
  /-- RETENTION_TIMER_EXPIRY (R12) of a call slot 0..31. -/
  | retentionTimerExpiry (slot : Nat)
  /-- DWELL_TIMER_EXPIRY (R13) of a call slot 0..31. -/
  | dwellTimerExpiry (slot : Nat)
  /-- PRESENCE_INPUT_CHANGE (R17): input PRES `position` is now at `level` (high = train present). -/
  | presenceInputChange (position : Nat) (level : Bool)
  /-- DEBOUNCE_TIMER_EXPIRY (R17) of a face position 0..3. -/
  | debounceTimerExpiry (position : Nat)
  /-- TRIGGER_RISING_EDGE (R51) of TRIG0 or TRIG1. -/
  | triggerRisingEdge (input : Nat)
  /-- TRIGGER_FALLING_EDGE (R51) of TRIG0 or TRIG1. -/
  | triggerFallingEdge (input : Nat)
  /-- RETRY_TIMER_EXPIRY (R66) of the job with this tag. -/
  | retryTimerExpiry (tag : Nat)
  /-- GAP_TIMER_EXPIRY (R65) of the job with this tag. -/
  | gapTimerExpiry (tag : Nat)
  /-- TEMPLATE_READ_COMPLETE (R79): the template read on the port delivers 128 bytes. -/
  | templateReadComplete (data : List Byte)
  /-- DIRECTORY_READ_COMPLETE (R78): the directory read on the port delivers 512 bytes. -/
  | directoryReadComplete (data : List Byte)
  /-- AUDIO_READ_COMPLETE (R76): the audio read on the port delivers 512 bytes. -/
  | audioReadComplete (data : List Byte)
  /-- FLASH_READ_NO_RESPONSE (R87): the flash did not show ready within 5 ms. -/
  | flashReadNoResponse
  /-- SAMPLE_PERIOD (R95): one sample period passes, in which the carrier other stations place on T0..T3 reads `carrier`. -/
  | samplePeriod (carrier : List Bool)
  /-- GAP_SILENCE_END (R95): the remaining time of the gap or silence entry of a channel reaches 0. -/
  | gapSilenceEnd (channel : Nat)
  /-- UNDERRUN (R99): the underrun total of a channel's airing reaches 4,001 periods. -/
  | underrun (channel : Nat)
  /-- STALL (R100): the underrun episode of a channel reaches 32,001 periods. -/
  | stall (channel : Nat)
  /-- SETTLE_TIMER_EXPIRY (R117) of a zone. -/
  | settleTimerExpiry (zone : Nat)
  /-- HOLD_TIMER_EXPIRY (R121) of a zone. -/
  | holdTimerExpiry (zone : Nat)
  /-- EXPIRY_TIMER_EXPIRY (R122) of a zone's holder. -/
  | expiryTimerExpiry (zone : Nat)
  /-- WAIT_TIMER_EXPIRY (R123) of the waiting entry of a zone made by this requester node and job tag. -/
  | waitTimerExpiry (zone node tag : Nat)
  /-- LINE_FAULT_INPUT_CHANGE (R125): input ZFLT `output` now shows a fault (`level`) or none. -/
  | lineFaultInputChange (output : Nat) (level : Bool)
  /-- TRUNK_VIEW_EXPIRY (R132) of the view entry of a trunk 0..3. -/
  | trunkViewExpiry (trunk : Nat)
  /-- TRUNK_WAIT_TIMER_EXPIRY (R137) of the job with this tag. -/
  | trunkWaitTimerExpiry (tag : Nat)
  /-- ANSWER_TIMER_EXPIRY (R141) of one remote home of the job with this tag. -/
  | answerTimerExpiry (tag home : Nat)
  /-- GATHER_TIMER_EXPIRY (R144) of the job with this tag. -/
  | gatherTimerExpiry (tag : Nat)
  /-- READY_TIMER_EXPIRY (R143) of the job with this tag. -/
  | readyTimerExpiry (tag : Nat)
  /-- START_TIMER_EXPIRY (R144) of the job with this tag. -/
  | startTimerExpiry (tag : Nat)
  /-- BACKOFF_TIMER_EXPIRY (R145) of the job with this tag. -/
  | backoffTimerExpiry (tag : Nat)
  /-- AMBIENT_READING_CYCLE (R154): the eight positions' results, a value 0..255 or no reading. -/
  | ambientReadingCycle (readings : List (Option Nat))
  /-- SILENCE_TIMER_EXPIRY (R155) of a zone's level entry. -/
  | silenceTimerExpiry (zone : Nat)
  /-- RELEASE_TIMER_EXPIRY (R160) of a zone's level entry. -/
  | releaseTimerExpiry (zone : Nat)
  deriving DecidableEq, Repr

end Sys2Proof
end

