-- ==== Sys2Proof/Decode.lean ====
section
/-! DEFINITION. The command a word of spec/opcode_table.json spells.  No row of the table of this block gives bits:
its commands are events, not words.  So no word spells a command. -/

namespace Sys2Proof

/-- The command that the word `w` of `nbits` bits spells: none, since the table gives no row any bits. -/
def decodeTableWord (_nbits _w : Nat) : Option Instr := none

end Sys2Proof
end

