-- ==== Sys2Proof/Config.lean ====
section
/-! DEFINITION. What the configuration fixes at start (chapters 1, 2, 6, 8, 9 and 11): settings, face positions with
their ladders and announcement entries, zone outputs, trigger entries, template map and report mask, and the sizes the
part has.  The values of the default sets and the reading of the image are in Machine/Image.lean. -/

namespace Sys2Proof

/-- The class of an announcement or frame (section 6 of 00_scope.md): a lower number is a better class. -/
inductive Cls where
  | emergency | safety | operational | information
  deriving DecidableEq, Repr

/-- The class number 0..3. -/
def Cls.rank : Cls → Nat
  | .emergency => 0
  | .safety => 1
  | .operational => 2
  | .information => 3

/-- The class of the two class bits of a header or an entry. -/
def Cls.ofBits (n : Nat) : Cls :=
  match n % 4 with
  | 0 => .emergency
  | 1 => .safety
  | 2 => .operational
  | _ => .information

/-- A lower number is a better class. -/
def Cls.better (a b : Cls) : Bool := decide (a.rank < b.rank)

/-- The classes that QUIET, SAFE configuration and a line fault hold back (R53, R109). -/
def Cls.isLow (c : Cls) : Bool := decide (2 ≤ c.rank)

/-- Zone selector of an entry or a step (Table 2-1). -/
inductive Selector where
  | face | faceConcourse | concourse
  deriving DecidableEq, Repr

/-- An announcement entry or delay entry: an optional template, class, zone selector, repeats and repeat gap (R16, Table 2-1). -/
structure Entry where
  template : Option Nat
  cls : Cls
  sel : Selector
  reps : Nat
  gap : Nat
  deriving DecidableEq, Repr

/-- How a ladder step is reached (Table 2-1); TIME-BASED carries its lead in seconds. -/
inductive StepKind where
  | timeBased (lead : Nat)
  | onArrival
  deriving DecidableEq, Repr

/-- One announcement point of a ladder (Table 2-1). -/
structure LadderStep where
  kind : StepKind
  template : Nat
  cls : Cls
  sel : Selector
  reps : Nat
  gap : Nat
  deriving DecidableEq, Repr

/-- A ladder: up to six positions, each holding a step or none (R191), and the delay entry. -/
structure Ladder where
  steps : List (Option LadderStep)
  delay : Entry
  deriving DecidableEq, Repr

/-- The configuration of one served face (R16). -/
structure FaceCfg where
  number : Nat
  length : Nat
  zones : List Nat
  concourse : List Nat
  arrival : Ladder
  departure : Ladder
  unscheduled : Entry
  cancellation : Entry
  alteration : Entry
  deriving DecidableEq, Repr

/-- The level settings of a zone (Table 8-2), all in half-dB units. -/
structure LevelSettings where
  full : Nat
  floor : Nat
  ceiling : Nat
  ambient : Nat
  marginEmergency : Nat
  marginSafety : Nat
  marginOperational : Nat
  marginInformation : Nat
  deriving DecidableEq, Repr

/-- The margin of a class, in half-dB units. -/
def LevelSettings.margin (l : LevelSettings) : Cls → Nat
  | .emergency => l.marginEmergency
  | .safety => l.marginSafety
  | .operational => l.marginOperational
  | .information => l.marginInformation

/-- A configured zone output: its zone number and the zone's level settings (Table 11-14). -/
structure OutputCfg where
  zone : Nat
  level : LevelSettings
  deriving DecidableEq, Repr

/-- A trigger entry (R51, Table 11-15). -/
structure TriggerCfg where
  template : Option Nat
  cls : Cls
  gap : Nat
  required : List Nat
  optional : List Nat
  deriving DecidableEq, Repr

/-- The settings of Table 9-1: settle time in ms, Θ and Δ in minutes, FIFO values in samples, budget in reads, the
rest in seconds. -/
structure Settings where
  settle : Nat
  hold : Nat
  gather : Nat
  waitLimit : Nat
  grace : Nat
  theta : Nat
  delta : Nat
  budget : Nat
  almostEmpty : Nat
  prefill : Nat
  debounce : Nat
  dwell : Nat
  release : Nat
  deriving DecidableEq, Repr

/-- The report mask: one bit for each completion group (R184). -/
structure ReportMask where
  normal : Bool
  afterStart : Bool
  neverStarted : Bool
  deriving DecidableEq, Repr

/-- The loaded configuration (R173, R191): four face positions, eight zone outputs, two trigger entries, 256 template
map entries. -/
structure Loaded where
  settings : Settings
  positions : List (Option FaceCfg)
  outputs : List (Option OutputCfg)
  triggers : List TriggerCfg
  templateMap : List Bool
  mask : ReportMask
  deriving DecidableEq, Repr

/-- Sample periods in one millisecond (section 7.2 of 00_scope.md). -/
def periodsPerMs : Nat := 16

/-- Sample periods in one second. -/
def periodsPerSecond : Nat := 16000

/-- Samples a channel FIFO holds (R91). -/
def fifoCapacity : Nat := 16384

/-- Samples of one audio block (R76). -/
def blockSamples : Nat := 504

/-- Frames the transmit queue holds (R167). -/
def txCapacity : Nat := 12

/-- Places of the receive FIFO (R168). -/
def rxCapacity : Nat := 8

/-- Job records the Job Table holds (R47). -/
def jobCapacity : Nat := 16

/-- Entries of a zone's waiting list (R115). -/
def waitingCapacity : Nat := 6

end Sys2Proof
end

