-- ==== Sys2Proof/Machine/State.lean ====
section
/-! DEFINITION. The state of the Nobriz 6240: every register, table, queue, timer, counter and pin the spec gives the
block, as plain data, and the state right after reset. -/

namespace Sys2Proof.Machine

open Sys2Proof

/-! ### Frames of the station line (chapter 11), as decoded -/

/-- The kind of a call (Table 1-1). -/
inductive CallKind where
  | arr | dep | arrDep
  deriving DecidableEq, Repr

/-- The payload of a CALL frame (Table 11-4). -/
structure CallBody where
  id : Nat
  rev : Nat
  day : Nat
  face : Nat
  prev : Option Nat
  kind : CallKind
  cancelled : Bool
  sArr : Option Nat
  sDep : Option Nat
  delay : Option Int
  dest : Nat
  origin : Nat
  operator : Nat
  formation : Nat
  points : List Nat
  deriving DecidableEq, Repr

/-- What a job says (R47): a template or a list of phrases. -/
inductive Content where
  | template (number : Nat)
  | phrases (list : List Nat)
  deriving DecidableEq, Repr

/-- The call match of an ANNOUNCE frame (R26). -/
inductive CallMatch where
  | exact (face id : Nat)
  | firstAfter (face second : Nat)
  | lastBefore (face second : Nat)
  deriving DecidableEq, Repr

/-- The payload of an ANNOUNCE frame (Table 11-5). -/
structure AnnounceBody where
  request : Nat
  content : Content
  callMatch : Option CallMatch
  notBefore : Option Nat
  reps : Nat
  gap : Nat
  required : List Nat
  optional : List Nat
  deriving DecidableEq, Repr

/-- The subkinds of NODE-CONTROL (Table 11-3); REPLAY-LAST names a face, 0 for "general". -/
inductive ControlBody where
  | quiet | wake | serviceReset
  | replayLast (face : Nat)
  deriving DecidableEq, Repr

/-- Node kinds of a PROFILE (R170). -/
inductive NodeKind where
  | zoneNode | console | timetable | clock
  deriving DecidableEq, Repr

/-- The payload of a PROFILE frame (Table 11-6); `trunks` is the four trunk bits. -/
structure ProfileBody where
  node : Nat
  kind : NodeKind
  revision : Nat
  request : Bool
  recovered : Bool
  trunks : Nat
  faces : List Nat
  zones : List Nat
  deriving DecidableEq, Repr

/-- The denials of an ask (R109). -/
inductive Denial where
  | busy | fault | quiet | trunk | cls
  deriving DecidableEq, Repr

/-- A home's answer about one zone (R118): ready delay in ms with the fault mark, position, or denial. -/
inductive Verdict where
  | granted (ready : Nat) (faultMark : Bool)
  | queued (position : Nat)
  | denied (reason : Denial)
  deriving DecidableEq, Repr

/-- The reasons of a revocation (R124). -/
inductive Reason where
  | preempted | displaced | expired | waitExpired | reset
  deriving DecidableEq, Repr

/-- One entry of a ZONE-REVOKE frame (Table 11-7). -/
structure RevokeEntry where
  zone : Nat
  tag : Nat
  reason : Reason
  deriving DecidableEq, Repr

/-- Completion codes (Table 3-4). -/
inductive Code where
  | completed
  | stale | bindFail | failedPhrase | fetchStall | noTrunk | noZone | preempted
  | queueFull | displaced | superseded | suppressed | badRequest | noMatch
  deriving DecidableEq, Repr

/-- Degraded flags of a job (R70). -/
structure Degraded where
  phraseSkipped : Bool := false
  underrun : Bool := false
  truncated : Bool := false
  optionalMissed : Bool := false
  zoneFaulted : Bool := false
  clampedTime : Bool := false
  deriving DecidableEq, Repr

/-- Origin kinds as a JOB-REPORT names them (Table 11-8). -/
inductive OriginKind where
  | ladder | delay | presence | alteration | cancellation | console | trigger | replay
  deriving DecidableEq, Repr

/-- The reference of a JOB-REPORT (R184, Table 11-9). -/
inductive ReportRef where
  | call (id : Nat)
  | face (number : Nat)
  | console (node request : Nat)
  | input (number : Nat)
  | replay (face : Nat)
  deriving DecidableEq, Repr

/-- The content a JOB-REPORT names (Table 11-9). -/
inductive ReportContent where
  | template (number : Nat)
  | phrases (count : Nat)
  | none (unused : Nat)
  deriving DecidableEq, Repr

/-- The payload of a JOB-REPORT frame (Table 11-9, R184). -/
structure ReportBody where
  tag : Nat
  origin : OriginKind
  ref : ReportRef
  content : ReportContent
  code : Code
  flags : Degraded
  airings : Nat
  zonesAired : Nat
  remaining : Nat
  deriving DecidableEq, Repr

/-- The fault set (Table 10-1); ZONE-LINE and SENSOR hold zone numbers in ascending order (log 49). -/
structure FaultSet where
  flashPort : Bool := false
  safeConfig : Bool := false
  isolatedRecovered : Bool := false
  clockUnknown : Bool := false
  zoneLine : List Nat := []
  sensor : List Nat := []
  deriving DecidableEq, Repr

/-- The payload of a FAULT frame (Table 11-9). -/
structure FaultBody where
  seq : Nat
  set : FaultSet
  deriving DecidableEq, Repr

/-- Participation states (section 9.5). -/
inductive PState where
  | start | listen | active | quiet | isolated
  deriving DecidableEq, Repr

/-- The payload of a STATUS frame (Table 11-9): state code, SAFE flag, FAULT payload, the 16 counters. -/
structure StatusBody where
  state : Nat
  safe : Bool
  fault : FaultBody
  counters : List Nat
  deriving DecidableEq, Repr

/-- The payload of a frame, by kind (Table 11-2). -/
inductive Payload where
  | time (day second : Nat)
  | call (body : CallBody)
  | announce (body : AnnounceBody)
  | control (body : ControlBody)
  | statusQuery
  | profile (body : ProfileBody)
  | seize (trunk tag hold : Nat)
  | free (trunk tag : Nat)
  | zoneAsk (tag trunk duration : Nat) (zones : List Nat)
  | zoneAnswer (tag : Nat) (verdicts : List (Nat × Verdict))
  | zoneRevoke (entries : List RevokeEntry)
  | zoneLeave (tag : Nat) (zones : List Nat)
  | jobReport (body : ReportBody)
  | fault (body : FaultBody)
  | status (body : StatusBody)
  deriving DecidableEq, Repr

/-- A frame of the station line (Table 11-1), its check apart. -/
structure Frame where
  cls : Cls
  source : Nat
  dest : Nat
  alt : Bool
  payload : Payload
  deriving DecidableEq, Repr

/-! ### Participation, pins, clock -/

/-- Where the node stands within START (R172). -/
inductive StartPhase where
  | resetAsserted | heldByNodeZero | readingImage
  deriving DecidableEq, Repr

/-- The Start and Participation Controller (chapter 9). -/
structure Part where
  state : PState
  phase : StartPhase
  node : Nat
  setB : Bool
  safe : Bool
  cfg : Loaded
  listenTimer : Option Instant
  isolationTimer : Option Instant
  deriving DecidableEq, Repr

/-- Levels of the input pins (00_scope.md Table 1).  `carrier` is the carrier other stations place on T0..T3. -/
structure Pins where
  pres : List Bool
  trig : List Bool
  zflt : List Bool
  carrier : List Bool
  deriving DecidableEq, Repr

/-- The Station Clock (R27), with the instant of the next tick (R28). -/
structure Clock where
  day : Nat
  second : Nat
  known : Bool
  nextTick : Option Instant
  deriving DecidableEq, Repr

/-! ### Call Table and Face Monitor -/

/-- Call states (Table 1-3); a FREE slot holds no record. -/
inductive CallState where
  | planned | due | atPlatform | closing
  | departed | finished | cancelled | moved
  deriving DecidableEq, Repr

/-- Step states (R37). -/
inductive StepState where
  | pending | fired | skipped
  deriving DecidableEq, Repr

/-- A call record (Table 1-1).  `steps` holds the 12 step states, the arrival ladder's first. -/
structure CallRec where
  id : Nat
  rev : Nat
  day : Nat
  face : Nat
  oldFace : Option Nat
  kind : CallKind
  statusCancelled : Bool
  sArr : Option Nat
  sDep : Option Nat
  delay : Option Int
  dest : Nat
  origin : Nat
  operator : Nat
  formation : Nat
  points : List Nat
  state : CallState
  steps : List StepState
  mLast : Option Nat
  early : Bool
  unconfirmed : Bool
  clamped : Bool
  expired : Bool
  closingReached : Bool
  retention : Option Instant
  dwell : Option Instant
  deriving DecidableEq, Repr

/-- A face record (R16): the face's configuration, debounced presence (true = HIGH), debounce timer, current call slot. -/
structure FaceRec where
  cfg : FaceCfg
  presence : Bool
  debounce : Option Instant
  current : Option Nat
  deriving DecidableEq, Repr

/-! ### Peers -/

/-- What a peer's PROFILE said (R170). -/
structure PeerProfile where
  kind : NodeKind
  zones : List Nat
  deriving DecidableEq, Repr

/-- One peer table entry (R169, R170); an alternation bit `none` is UNKNOWN. -/
structure Peer where
  annBit : Option Bool
  controlBit : Option Bool
  askBit : Option Bool
  profile : Option PeerProfile
  deriving DecidableEq, Repr

/-! ### Jobs -/

/-- A ladder of a face. -/
inductive LadderSide where
  | arrival | departure
  deriving DecidableEq, Repr

/-- Who asked for a job (R47); REPLAY names the face of the request, 0 for "general". -/
inductive Origin where
  | ladder (slot step : Nat)
  | delay (slot : Nat) (side : LadderSide)
  | presence (face : Nat)
  | alteration (slot : Nat)
  | cancellation (slot : Nat)
  | console (node request : Nat)
  | trigger (input : Nat)
  | replay (face : Nat)
  deriving DecidableEq, Repr

/-- A call reference (R25). -/
structure CallRef where
  slot : Nat
  id : Nat
  rev : Nat
  deriving DecidableEq, Repr

/-- A not-before time (R50): a service second, and its service day once fixed. -/
structure NotBefore where
  second : Nat
  day : Option Nat
  deriving DecidableEq, Repr

/-- A phrase entry of an expanded list (R59), with its directory information. -/
structure PhraseEntry where
  phrase : Nat
  item : Nat
  essential : Bool
  start : Nat
  blocks : Nat
  samples : Nat
  deriving DecidableEq, Repr

/-- An entry of an expanded list (R59): a phrase, or a gap of some ms. -/
inductive ListEntry where
  | phrase (p : PhraseEntry)
  | gap (item ms : Nat)
  deriving DecidableEq, Repr

/-- The snapshot of a call taken at binding (R58). -/
structure Snapshot where
  face : Nat
  oldFace : Option Nat
  kind : CallKind
  sArr : Option Nat
  sDep : Option Nat
  delay : Option Int
  dest : Nat
  origin : Nat
  operator : Nat
  formation : Nat
  points : List Nat
  clamped : Bool
  deriving DecidableEq, Repr

/-- Binding in progress (R58 to R63, R79): whether the template is still awaited, entries looked up, entries yet to be
looked up, and whether a condition of R60 holds. -/
structure Binding where
  awaitingTemplate : Bool
  bound : List ListEntry
  todo : List ListEntry
  failed : Bool
  deriving DecidableEq, Repr

/-- Job states (Table 3-3); a DONE record is freed in the step that ends it (R71). -/
inductive JobState where
  | queued | binding | gathering | readyWait | airing | gap | retryWait
  deriving DecidableEq, Repr

/-- Phases of a gathering (Table 7-1). -/
inductive GatherPhase where
  | idle | trunk | zones | backoff | ready | airing
  deriving DecidableEq, Repr

/-- The home of a zone as a gathering sees it (R134, R139). -/
inductive Home where
  | local
  | remote (node : Nat)
  | unknown
  deriving DecidableEq, Repr

/-- The verdict of a grant record entry (R139); `ready` is the ready instant; `left` marks an entry given back by a
failed round (R145), which is not wanted. -/
inductive GrantVerdict where
  | waiting
  | granted (ready : Instant) (faultMark : Bool)
  | queued (position : Nat)
  | denied (reason : Option Denial)
  | dropped
  | left
  deriving DecidableEq, Repr

/-- One entry of a grant record (R139). -/
structure Grant where
  zone : Nat
  required : Bool
  home : Home
  verdict : GrantVerdict
  deriving DecidableEq, Repr

/-- Gathering state of one job (Table 7-1); `reseize` says that the next round begins with a new seizure (R146); `ask`
is the model's serial number of the ZONE-ASK of this round, whose echo starts the answer timers (R141). -/
structure Gathering where
  phase : GatherPhase
  hold : Nat
  trunkRound : Nat
  tried : List Nat
  excluded : Option Nat
  seizing : Option Nat
  trunkWait : Option Instant
  zoneRound : Nat
  grants : List Grant
  answers : List (Nat × Instant)
  gather : Option Instant
  ready : Option Instant
  startTimer : Option Instant
  backoff : Option Instant
  reseize : Bool
  ask : Option Nat
  deriving DecidableEq, Repr

/-- No gathering. -/
def Gathering.none : Gathering :=
  { phase := .idle, hold := 0, trunkRound := 1, tried := [], excluded := .none, seizing := .none, trunkWait := .none,
    zoneRound := 1, grants := [], answers := [], gather := .none, ready := .none, startTimer := .none,
    backoff := .none, reseize := false, ask := .none }

/-- The last bound airing of a job, kept for its last-aired record (R71): list and duration. -/
structure BoundAiring where
  list : List ListEntry
  duration : Nat
  deriving DecidableEq, Repr

/-- A job record (Table 3-1).  `ending` is the code of the first ending cause taken, the completion code of a job that
ends (R70); `lastFace` the face in the last snapshot taken (R58, R71); `remaining` the phrases remaining at failure (R70);
`gathering` the job's gathering state (Table 7-1). -/
structure JobRec where
  tag : Nat
  creation : Nat
  origin : Origin
  callRef : Option CallRef
  content : Content
  cls : Cls
  required : List Nat
  optional : List Nat
  repsLeft : Nat
  gap : Nat
  notBefore : Option NotBefore
  state : JobState
  channel : Option Nat
  trunk : Option Nat
  snapshot : Option Snapshot
  expanded : Option (List ListEntry)
  duration : Nat
  airings : Nat
  retries : Nat
  staleMark : Bool
  lastMark : Bool
  fellMark : Bool
  retryTimer : Option Instant
  gapTimer : Option Instant
  flags : Degraded
  ending : Option Code
  binding : Option Binding
  lastBound : Option BoundAiring
  lastFace : Option Nat
  zonesAired : Nat
  remaining : Nat
  gathering : Gathering
  deriving DecidableEq, Repr

/-- A last-aired record (R71). -/
structure LastAired where
  cls : Cls
  content : Content
  required : List Nat
  optional : List Nat
  list : List ListEntry
  duration : Nat
  deriving DecidableEq, Repr

/-- A request to the Job Table (R49, R50, R51, R52): the fields of the record it asks for. -/
structure JobRequest where
  origin : Origin
  callRef : Option CallRef
  content : Content
  cls : Cls
  reps : Nat
  gap : Nat
  required : List Nat
  optional : List Nat
  notBefore : Option NotBefore
  replay : Option (List ListEntry × Nat)
  deriving DecidableEq, Repr

/-- The Job Table (chapter 3): records, last tag issued, last creation order given, trigger jobs of TRIG0 and TRIG1, and
the last-aired records of the four face positions and the general one (fifth). -/
structure JobTable where
  recs : List JobRec
  lastTag : Nat
  creation : Nat
  triggerJobs : List (Option Nat)
  lastAired : List (Option LastAired)
  deriving DecidableEq, Repr

/-! ### Fetch Engine and playout channels -/

/-- What a binding read reads (R79): a template, or a directory block. -/
inductive BindRead where
  | template (number : Nat)
  | directory (block : Nat)
  deriving DecidableEq, Repr

/-- A waiting binding read: of which channel's job, and what (R84). -/
structure WaitingRead where
  channel : Nat
  read : BindRead
  deriving DecidableEq, Repr

/-- The read on the flash port: an audio read of a stream, or a binding read; `live` is cleared when the binding that
made it has ended (R79). -/
inductive PortRead where
  | audio (stream : Nat)
  | bind (channel : Nat) (read : BindRead) (live : Bool)
  deriving DecidableEq, Repr

/-- Fetch stream states (Table 4-3). -/
inductive StreamState where
  | idle | running | finished | ending
  deriving DecidableEq, Repr

/-- The audio read of a stream now on the port (Table 4-3). -/
structure InFlight where
  block : Nat
  phrase : Nat
  index : Nat
  deriving DecidableEq, Repr

/-- A fetch stream (Table 4-3): `list` is the expanded list it walks; `restart` a start waiting for IDLE (R81). -/
structure Stream where
  state : StreamState
  list : List ListEntry
  position : Nat
  remaining : Nat
  budget : Nat
  stopPoint : Option Nat
  inFlight : Option InFlight
  restart : Option (List ListEntry)
  deriving DecidableEq, Repr

/-- The Fetch Engine (chapter 4): directory cache (block number and its 512 bytes; `none` = invalid), the port, waiting
binding reads (oldest first), the stream last served, the two streams. -/
structure Flash where
  cache : Option (Nat × List Byte)
  port : Option PortRead
  waiting : List WaitingRead
  lastServed : Nat
  streams : List Stream
  deriving DecidableEq, Repr

/-- Kind of the entry now playing (R95). -/
inductive EntryKind where
  | phrase | gap | silence
  deriving DecidableEq, Repr

/-- The playout position (Table 5-1): list position, item index, kind, remaining sample periods of a gap or silence. -/
structure Playing where
  position : Nat
  item : Nat
  kind : EntryKind
  left : Nat
  deriving DecidableEq, Repr

/-- One item of a channel FIFO (R91): a sample with its tags, or a marker. -/
inductive FifoItem where
  | sample (byte : Byte) (position item : Nat)
  | phraseStart (position item phrase : Nat)
  | phraseEnd (position : Nat)
  | gap (position item ms : Nat)
  | silence (position item : Nat)
  | phraseFailed (position : Nat) (essential : Bool)
  | listEnd
  deriving DecidableEq, Repr

/-- Channel states (R92). -/
inductive ChannelState where
  | free | reserved | filling | playing | stopping | held | flushing
  deriving DecidableEq, Repr

/-- A playout channel (Table 5-1); `output` is the value of the last sample period, 0 for silence. -/
structure Channel where
  state : ChannelState
  fifo : List FifoItem
  position : Option Playing
  stopPosition : Option Nat
  played : Nat
  underrunTotal : Nat
  underrunEpisode : Option Nat
  startHeld : Bool
  transmit : Option Nat
  output : Int
  deriving DecidableEq, Repr

/-! ### Zones, trunks, levels -/

/-- What a zone is fed from (R106): a channel of this node or a station trunk. -/
inductive Source where
  | channel (number : Nat)
  | trunk (number : Nat)
  deriving DecidableEq, Repr

/-- An ask as it reaches the arbiter (R108). -/
structure Ask where
  node : Nat
  tag : Nat
  cls : Cls
  source : Source
  duration : Nat
  deriving DecidableEq, Repr

/-- The holder of a zone (Table 6-1). -/
structure Holder where
  node : Nat
  tag : Nat
  cls : Cls
  source : Source
  duration : Nat
  expiry : Instant
  deriving DecidableEq, Repr

/-- A waiting entry of a zone (Table 6-1). -/
structure Waiter where
  node : Nat
  tag : Nat
  cls : Cls
  source : Source
  duration : Nat
  order : Nat
  wait : Instant
  deriving DecidableEq, Repr

/-- Zone states (Table 6-2). -/
inductive ZoneState where
  | idle | settling | speaking | holding
  deriving DecidableEq, Repr

/-- A zone record (Table 6-1). -/
structure ZoneRec where
  zone : Nat
  outputs : List Nat
  state : ZoneState
  holder : Option Holder
  waiting : List Waiter
  fault : Bool
  settle : Option Instant
  hold : Option Instant
  deriving DecidableEq, Repr

/-- The Zone Arbiter: its records in output order and the arrival order last given (R106). -/
structure ZoneTable where
  recs : List ZoneRec
  arrivals : Nat
  deriving DecidableEq, Repr

/-- A HELD trunk view entry (R130). -/
structure TrunkHold where
  node : Nat
  tag : Nat
  expiry : Instant
  deriving DecidableEq, Repr

/-- Sensor states (Table 8-1). -/
inductive SensorState where
  | awaiting | tracking | fault
  deriving DecidableEq, Repr

/-- Hold of a level entry (R156). -/
inductive LevelHold where
  | opened | held | releasing
  deriving DecidableEq, Repr

/-- A level entry (Table 8-1): estimate in sixteenths of a dB, applied attenuation in half-dB units. -/
structure LevelEntry where
  zone : Nat
  reading : Nat
  sensor : SensorState
  estimate : Option Nat
  pendingDefault : Bool
  hold : LevelHold
  release : Option Instant
  silence : Instant
  attenuation : Nat
  settings : LevelSettings
  deriving DecidableEq, Repr

/-! ### Line Interface and Report Unit -/

/-- Why a frame of this node is on the queue, where its echo, its spoiling or its refusal depends on it (R141, R177,
R183); a ZONE-ASK bears the model's serial number of it. -/
inductive TxPurpose where
  | plain | listenProfile | isolationProfile
  | ask (serial : Nat)
  deriving DecidableEq, Repr

/-- A frame of the transmit queue; `sending` when in transmission; `doomed` when the queue was emptied meanwhile (R166). -/
structure TxFrame where
  frame : Frame
  purpose : TxPurpose
  sending : Bool
  doomed : Bool
  deriving DecidableEq, Repr

/-- The echo place (R164): the frame, and how many frames of the receive FIFO are delivered before it (R166). -/
structure EchoPlace where
  frame : Frame
  purpose : TxPurpose
  ahead : Nat
  deriving DecidableEq, Repr

/-- The Line Interface (chapter 9), its peer table and zone-home map apart; `asks` is the model's count of the ZONE-ASKs
handed over, which tells the echo of one from the echo of another (R141). -/
structure Line where
  tx : List TxFrame
  rx : List Frame
  echo : Option EchoPlace
  spoilRun : Nat
  ownSpoils : Nat
  spoilSlot : Bool
  askAlt : Bool
  asks : Nat
  deriving DecidableEq, Repr

/-- The Report Unit (chapter 10): fault set, fault sequence number, 16 counters in the order of Table 10-2. -/
structure ReportUnit where
  faults : FaultSet
  seq : Nat
  counters : List Nat
  deriving DecidableEq, Repr

/-- The counters of Table 10-2. -/
inductive Counter where
  | receiveOverruns | duplicatesDropped | staleRevisions | tableFull | framesDropped | spoils | malformedFrames
  | fetchRetries | phraseFailures | underruns | presenceWithoutCall | jobsCompleted | jobsFailed | zoneHomeConflicts
  | correctedFields | faultChanges
  deriving DecidableEq, Repr

/-! ### Work handed from block to block within one command -/

/-- Notices of the Call Table (R10); RETIRED names the state, DEPARTED or FINISHED. -/
inductive NoticeKind where
  | revised | renewed | cancelled | moved | removed
  | retired (state : CallState)
  deriving DecidableEq, Repr

/-- What the Trunk and Request Unit reports to the Job Table (R64, R66). -/
inductive UnitReport where
  | allGranted | readyPassed | roundFailed | roundsExhausted | trunkExhausted | zoneLost | preempted
  deriving DecidableEq, Repr

/-- What a channel reports to the Job Table (chapter 5). -/
inductive ChannelReport where
  | startCondition | endOfAudio | stopComplete | failedAtBoundary | essentialFailed | phraseSkipped | underrun | stalled
  deriving DecidableEq, Repr

/-- One piece of work handed from one block to another (log 5). -/
inductive Note where
  | notice (kind : NoticeKind) (slot id rev : Nat)
  | request (r : JobRequest)
  | dispatch
  | unit (tag : Nat) (r : UnitReport)
  | channel (number : Nat) (r : ChannelReport)
  | verdict (tag zone : Nat) (v : Verdict)
  | revoked (tag zone : Nat) (r : Reason)
  | seizeLost (tag trunk : Nat)
  | askUnsent (tag serial : Nat)
  | readyDue (tag : Nat)
  | beginRound (tag : Nat)
  | testStart (number : Nat)
  | flashLook
  deriving DecidableEq, Repr

/-! ### The whole state -/

/-- What the blocks that serve jobs and zones only read while they settle a command: timebase, participation, pins,
clock, calls, faces, peers and the zone-home map (zone z at index z − 1). -/
structure Env where
  now : Instant
  part : Part
  pins : Pins
  clock : Clock
  calls : List (Option CallRec)
  faces : List (Option FaceRec)
  peers : List Peer
  homes : List (Option Nat)
  deriving DecidableEq, Repr

/-- What the blocks that serve jobs and zones change: jobs, flash, channels, zones, trunk view, levels, line, reports,
and the work not yet done. -/
structure Works where
  jobs : JobTable
  flash : Flash
  channels : List Channel
  zones : ZoneTable
  trunks : List (Option TrunkHold)
  levels : List LevelEntry
  line : Line
  report : ReportUnit
  agenda : List Note
  deriving DecidableEq, Repr

/-- The node: everything but the queue of commands. -/
structure Node where
  env : Env
  ws : Works
  deriving DecidableEq, Repr

/-- The state of the machine: the commands that wait, first in, first out, and the node. -/
structure State where
  pending : List Instr
  node : Node
  deriving DecidableEq, Repr

/-- Reasons the machine would stop with a fault: none, since no rule of the spec stops the part. -/
inductive Fault where
  deriving DecidableEq, Repr

/-- Reasons a command is refused. -/
inductive Refusal where
  /-- Raised by `exec` for a command that has no meaning yet; safe: the machine stops where the part goes on. -/
  | notModelled (mnemonic : String)
  deriving DecidableEq, Repr

/-! ### The state right after reset -/

/-- Set A of Table 9-1, which stands until the strap and the image are read (log 7). -/
def resetSettings : Settings :=
  { settle := 300, hold := 4, gather := 5, waitLimit := 30, grace := 90, theta := 3, delta := 5, budget := 3,
    almostEmpty := 2016, prefill := 4032, debounce := 3, dwell := 120, release := 3 }

/-- The configuration before any is loaded: no faces, outputs, trigger entries or templates (log 7). -/
def resetConfiguration : Loaded :=
  { settings := resetSettings, positions := [none, none, none, none],
    outputs := [none, none, none, none, none, none, none, none], triggers := [], templateMap := [],
    mask := { normal := true, afterStart := true, neverStarted := true } }

/-- The Participation Controller at start reset (R172, R179); the SAFE flag is clear (log 7). -/
def Part.reset : Part :=
  { state := .start, phase := .resetAsserted, node := 0, setB := false, safe := false, cfg := resetConfiguration,
    listenTimer := none, isolationTimer := none }

/-- All input pins low, no line fault and no carrier (log 7). -/
def Pins.reset : Pins :=
  { pres := [false, false, false, false], trig := [false, false],
    zflt := [false, false, false, false, false, false, false, false], carrier := [false, false, false, false] }

/-- The Station Clock at start reset (R27). -/
def Clock.reset : Clock := { day := 0, second := 0, known := false, nextTick := none }

/-- A peer of which nothing has been heard (R169, R170). -/
def Peer.reset : Peer := { annBit := none, controlBit := none, askBit := none, profile := none }

/-- A fetch stream at start reset (R80); its list position and blocks remaining are 0 and its stop point absent (log 46). -/
def Stream.reset (budget : Nat) : Stream :=
  { state := .idle, list := [], position := 0, remaining := 0, budget := budget, stopPoint := none, inFlight := none,
    restart := none }

/-- The Fetch Engine at start reset (R78, R80, R84). -/
def Flash.reset (budget : Nat) : Flash :=
  { cache := none, port := none, waiting := [], lastServed := 1, streams := [Stream.reset budget, Stream.reset budget] }

/-- A channel at start reset (R90); what R90 does not list is 0, absent or not held (log 54). -/
def Channel.reset : Channel :=
  { state := .free, fifo := [], position := none, stopPosition := none, played := 0, underrunTotal := 0,
    underrunEpisode := none, startHeld := false, transmit := none, output := 0 }

/-- The Job Table at start reset (R47, R48, R71, R72). -/
def JobTable.reset : JobTable :=
  { recs := [], lastTag := 255, creation := 0, triggerJobs := [none, none], lastAired := [none, none, none, none, none] }

/-- The Line Interface at start reset (R164, R169). -/
def Line.reset : Line :=
  { tx := [], rx := [], echo := none, spoilRun := 0, ownSpoils := 8, spoilSlot := false, askAlt := true,
    asks := 0 }

/-- The Report Unit at start reset (R180, R182, R186). -/
def ReportUnit.reset : ReportUnit := { faults := {}, seq := 0, counters := List.replicate 16 0 }

/-- What the blocks read, at start reset, with the pins and the timebase where they stand. -/
def Env.reset (now : Instant) (pins : Pins) : Env :=
  { now := now, part := Part.reset, pins := pins, clock := Clock.reset, calls := List.replicate 32 none,
    faces := [none, none, none, none], peers := List.replicate 63 Peer.reset, homes := List.replicate 254 none }

/-- What the blocks change, at start reset. -/
def Works.reset : Works :=
  { jobs := JobTable.reset, flash := Flash.reset resetSettings.budget, channels := [Channel.reset, Channel.reset],
    zones := { recs := [], arrivals := 0 }, trunks := [none, none, none, none], levels := [], line := Line.reset,
    report := ReportUnit.reset, agenda := [] }

/-- The machine right after reset (R179): START, every table empty, no command waiting. -/
def State.reset : State :=
  { pending := [], node := { env := Env.reset 0 Pins.reset, ws := Works.reset } }

end Sys2Proof.Machine
end

