-- ==== Sys2Proof/Machine/Ops.lean ====
section
/-! DEFINITION. The named operations over the tables of the state: finding and changing a job, channel, stream, zone or
level record, handing work to another block, spans of the local timebase, and the serial arithmetic of R2. -/

namespace Sys2Proof.Machine

open Sys2Proof

/-! ### Spans of the local timebase -/

/-- A span of `n` ms in sample periods. -/
def ms (n : Nat) : Nat := periodsPerMs * n

/-- A span of `n` s in sample periods. -/
def sec (n : Nat) : Nat := periodsPerSecond * n

/-- What is left until an instant, in ms rounded up (R110, R114, R120). -/
def msLeft (now until' : Instant) : Nat := (until' - now + (periodsPerMs - 1)) / periodsPerMs

/-! ### Serial arithmetic (R2, R5) -/

/-- The signed serial difference c − b of two 16-bit days (R2). -/
def serialDiff (c b : Nat) : Int :=
  let d := (c + 65536 - b % 65536) % 65536
  if d < 32768 then (d : Int) else (d : Int) - 65536

/-- The day-adjusted value of second `t` of day `c` against base day `b` (R2). -/
def dayAdjusted (t : Int) (c b : Nat) : Int := t + 86400 * serialDiff c b

/-- How revision `n` stands to revision `o` (R5). -/
inductive RevOrder where
  | newer | equal | older
  deriving DecidableEq, Repr

/-- R5. -/
def revOrder (n o : Nat) : RevOrder :=
  let d := (n + 256 - o % 256) % 256
  if d = 0 then .equal else if d ≤ 127 then .newer else .older

/-! ### Lists -/

/-- The bit of a list of levels; a missing one is low. -/
def levelAt (l : List Bool) (i : Nat) : Bool := l.getD i false

/-- The items of a list, each at its first place only. -/
def firstPlaces : List Nat → List Nat
  | [] => []
  | x :: rest => x :: (firstPlaces rest).filter (fun y => y ≠ x)

/-- Insertion of a number into an ascending list without repeats. -/
def insertAsc (n : Nat) : List Nat → List Nat
  | [] => [n]
  | m :: rest => if n < m then n :: m :: rest else if n = m then m :: rest else m :: insertAsc n rest

/-- Insertion into a list kept in the order `le`, after its equals. -/
def insertBy {α : Type} (le : α → α → Bool) (a : α) : List α → List α
  | [] => [a]
  | b :: rest => if le b a then b :: insertBy le a rest else a :: b :: rest

/-- A list sorted by `le`, equals in their order. -/
def sortBy {α : Type} (le : α → α → Bool) : List α → List α
  | [] => []
  | a :: rest => insertFront le a (sortBy le rest)
where
  /-- Insertion before the equals. -/
  insertFront (le : α → α → Bool) (a : α) : List α → List α
    | [] => [a]
    | b :: rest => if le a b then a :: b :: rest else b :: insertFront le a rest

/-- The best element of a list under a strict order; the first among equals. -/
def bestBy {α : Type} (better : α → α → Bool) : List α → Option α
  | [] => none
  | a :: rest =>
    match bestBy better rest with
    | none => some a
    | some b => if better b a then some b else some a

/-! ### Reading the state -/

/-- The clock's current service position (R31): service day and service second. -/
def Clock.position (c : Clock) : Nat × Nat :=
  if 7200 ≤ c.second then (c.day, c.second - 7200) else ((c.day + 65535) % 65536, c.second + 79200)

/-- The relative time of second `t` of service day `day` (R35). -/
def relTime (c : Clock) (t : Int) (day : Nat) : Int := dayAdjusted t day c.position.1 - (c.position.2 : Int)

/-- The face record that serves a face number, with its position. -/
def findFaceFrom (face : Nat) : Nat → List (Option FaceRec) → Option (Nat × FaceRec)
  | _, [] => none
  | i, none :: rest => findFaceFrom face (i + 1) rest
  | i, some f :: rest => if f.cfg.number = face then some (i, f) else findFaceFrom face (i + 1) rest

/-- The face record that serves a face number. -/
def Env.face (e : Env) (face : Nat) : Option FaceRec := (findFaceFrom face 0 e.faces).map (·.2)

/-- The position of the face record that serves a face number. -/
def Env.facePosition (e : Env) (face : Nat) : Option Nat := (findFaceFrom face 0 e.faces).map (·.1)

/-- Whether the node serves a face. -/
def Env.serves (e : Env) (face : Nat) : Bool := (e.face face).isSome

/-- The call record of a slot. -/
def Env.callAt (e : Env) (slot : Nat) : Option CallRec := (e.calls[slot]?).join

/-- The call record of a slot when it still holds this call id (R58). -/
def Env.callFor (e : Env) (r : CallRef) : Option CallRec := (e.callAt r.slot).filter (fun c => c.id = r.id)

/-- The home the zone-home map names for a zone (R170). -/
def Env.homeOf (e : Env) (zone : Nat) : Option Nat := if zone = 0 then none else (e.homes[zone - 1]?).join

/-- A call is live in PLANNED, DUE, AT-PLATFORM and CLOSING (section 1.3). -/
def CallState.live : CallState → Bool
  | .planned | .due | .atPlatform | .closing => true
  | .departed | .finished | .cancelled | .moved => false

/-- Whether a kind of call has an arrival. -/
def CallKind.hasArr : CallKind → Bool
  | .arr | .arrDep => true
  | .dep => false

/-- Whether a kind of call has a departure. -/
def CallKind.hasDep : CallKind → Bool
  | .dep | .arrDep => true
  | .arr => false

/-! ### Work handed on -/

/-- Work handed to another block. -/
def Works.post (n : Note) (w : Works) : Works := { w with agenda := w.agenda ++ [n] }

/-- Several pieces of work handed on, in order. -/
def Works.postAll (ns : List Note) (w : Works) : Works := { w with agenda := w.agenda ++ ns }

/-! ### Jobs -/

/-- The job record with a tag. -/
def Works.job (w : Works) (tag : Nat) : Option JobRec := w.jobs.recs.find? (fun r => r.tag = tag)

/-- A change of the job record with a tag. -/
def Works.modJob (tag : Nat) (f : JobRec → JobRec) (w : Works) : Works :=
  { w with jobs := { w.jobs with recs := w.jobs.recs.map (fun r => if r.tag = tag then f r else r) } }

/-- A job is in progress in BINDING, GATHERING, READY-WAIT, AIRING and GAP (R55). -/
def JobState.inProgress : JobState → Bool
  | .binding | .gathering | .readyWait | .airing | .gap => true
  | .queued | .retryWait => false

/-- The in-progress job with a tag. -/
def Works.liveJob (w : Works) (tag : Nat) : Option JobRec := (w.job tag).filter (fun r => r.state.inProgress)

/-- The job record that holds a channel. -/
def Works.jobOn (w : Works) (channel : Nat) : Option JobRec := w.jobs.recs.find? (fun r => r.channel = some channel)

/-- A change of the gathering state of a job. -/
def Works.modGather (tag : Nat) (f : Gathering → Gathering) (w : Works) : Works :=
  w.modJob tag (fun r => { r with gathering := f r.gathering })

/-- A change of the degraded flags of a job. -/
def Works.flag (tag : Nat) (f : Degraded → Degraded) (w : Works) : Works :=
  w.modJob tag (fun r => { r with flags := f r.flags })

/-! ### Channels and streams -/

/-- A channel; a number past 1 names none, and reads as a free one. -/
def Works.channel (w : Works) (n : Nat) : Channel := w.channels.getD n Channel.reset

/-- A change of a channel. -/
def Works.modChannel (n : Nat) (f : Channel → Channel) (w : Works) : Works :=
  { w with channels := w.channels.modify n f }

/-- A fetch stream. -/
def Works.stream (w : Works) (n : Nat) : Stream := w.flash.streams.getD n (Stream.reset 0)

/-- A change of a fetch stream. -/
def Works.modStream (n : Nat) (f : Stream → Stream) (w : Works) : Works :=
  { w with flash := { w.flash with streams := w.flash.streams.modify n f } }

/-! ### Zones, trunks and levels -/

/-- The zone record of a zone homed here. -/
def Works.zone (w : Works) (zone : Nat) : Option ZoneRec := w.zones.recs.find? (fun z => z.zone = zone)

/-- Whether a zone is homed here (R134). -/
def Works.homes (w : Works) (zone : Nat) : Bool := (w.zone zone).isSome

/-- The trunk view entry of a trunk. -/
def Works.trunk (w : Works) (t : Nat) : Option TrunkHold := (w.trunks[t]?).join

/-- The level entry of a zone. -/
def Works.level (w : Works) (zone : Nat) : Option LevelEntry := w.levels.find? (fun l => l.zone = zone)

/-- A change of the level entry of a zone. -/
def Works.modLevel (zone : Nat) (f : LevelEntry → LevelEntry) (w : Works) : Works :=
  { w with levels := w.levels.map (fun l => if l.zone = zone then f l else l) }

/-- Carrier on a trunk as TKCS shows it: another station's, or this node's own drive (R105). -/
def carrierOn (e : Env) (w : Works) (t : Nat) : Bool :=
  levelAt e.pins.carrier t || w.channels.any (fun c => c.transmit = some t)

end Sys2Proof.Machine
end

