-- ==== Sys2Proof/Machine/Bytes.lean ====
section
/-! DEFINITION. Bytes and numbers (section 7.2 of 00_scope.md: most significant byte first) and the two cyclic
redundancy checks (R76, R187). -/

namespace Sys2Proof.Machine

open Sys2Proof

/-- The number a byte holds, 0 past the end of the bytes. -/
def byteAt (l : List Byte) (i : Nat) : Nat := (l.getD i 0).toNat

/-- The number two bytes hold from place `i` on. -/
def twoAt (l : List Byte) (i : Nat) : Nat := byteAt l i * 256 + byteAt l (i + 1)

/-- The number three bytes hold from place `i` on. -/
def threeAt (l : List Byte) (i : Nat) : Nat := twoAt l i * 256 + byteAt l (i + 2)

/-- The bytes from place `i` on, `n` of them. -/
def slice (l : List Byte) (i n : Nat) : List Byte := (l.drop i).take n

/-- A value handed on as a numeral: the identity, written so that an evaluator works the number out before it goes on. -/
def forced {α : Type} (n : Nat) (f : Nat → α) : α :=
  match n with
  | 0 => f 0
  | k + 1 => f (k + 1)

/-- One bit of a cyclic redundancy check in a register of `2 * top` values with generator `poly`: shift left, and add
the generator when the top bit was set. -/
def crcBit (top poly c : Nat) : Nat := if top ≤ c then ((2 * c) % (2 * top)) ^^^ poly else 2 * c

/-- Eight bits of a check. -/
def crcEight (top poly c : Nat) : Nat :=
  forced (crcBit top poly (crcBit top poly c)) fun c => forced (crcBit top poly (crcBit top poly c)) fun c =>
    forced (crcBit top poly (crcBit top poly c)) fun c => crcBit top poly (crcBit top poly c)

/-- A check over bytes, each entered most significant bit first; `shift` places a byte at the top of the register. -/
def crcOver (top poly shift : Nat) : Nat → List Byte → Nat
  | c, [] => c
  | c, b :: rest => forced (crcEight top poly (c ^^^ (b.toNat * shift))) fun c => crcOver top poly shift c rest

/-- The check of a line frame over header and payload: generator 1021 hexadecimal, register preset to all ones, not
inverted (R187). -/
def crc16 (l : List Byte) : Nat := crcOver 0x8000 0x1021 0x100 0xFFFF l

/-- The check of an audio block or of the configuration image: generator 04C11DB7 hexadecimal, register preset to all
ones, result inverted (R76). -/
def crc32 (l : List Byte) : Nat := crcOver 0x80000000 0x04C11DB7 0x1000000 0xFFFFFFFF l ^^^ 0xFFFFFFFF

/-- A number 0..255 as a byte. -/
def toByte (n : Nat) : Byte := BitVec.ofNat 8 n

/-- A number as two bytes. -/
def two (n : Nat) : List Byte := [toByte (n / 256), toByte n]

/-- A number as three bytes. -/
def three (n : Nat) : List Byte := [toByte (n / 65536), toByte (n / 256), toByte n]

/-- Numbers 0..255 as bytes. -/
def toBytes (l : List Nat) : List Byte := l.map toByte

/-- A flag as the number 0 or 1. -/
def bit (b : Bool) : Nat := if b then 1 else 0

end Sys2Proof.Machine
end

