-- ==== Sys2Proof/Machine/Times.lean ====
section
/-! DEFINITION. The arithmetic of expected times, announced minutes and spoken times (R34, R38 to R41), and the zone
lists of a selector (R25). -/

namespace Sys2Proof.Machine

open Sys2Proof

/-- The delay clamp (R34, stage 1): −600..+14,400, an absent report taken as 0. -/
def clampedDelay (d : Option Int) : Int := max (-600) (min 14400 (d.getD 0))

/-- The clamp of an expected time to 0..107,999 (R34, stage 2). -/
def clampTime (t : Int) : Nat := (max 0 (min 107999 t)).toNat

/-- The expected arrival before its clamp. -/
def rawArrival (s : Nat) (d : Option Int) : Int := (s : Int) + clampedDelay d

/-- The expected departure before its clamp: never early. -/
def rawDeparture (s : Nat) (d : Option Int) : Int := (s : Int) + max 0 (clampedDelay d)

/-- The expected arrival of a call, when it has an arrival (R34). -/
def CallRec.expectedArr (c : CallRec) : Option Nat :=
  if c.kind.hasArr then c.sArr.map (fun s => clampTime (rawArrival s c.delay)) else none

/-- The expected departure of a call, when it has a departure (R34). -/
def CallRec.expectedDep (c : CallRec) : Option Nat :=
  if c.kind.hasDep then c.sDep.map (fun s => clampTime (rawDeparture s c.delay)) else none

/-- The delay clamp or an expected-time clamp changes its value (R34). -/
def CallRec.needsClamp (c : CallRec) : Bool :=
  decide (clampedDelay c.delay ≠ c.delay.getD 0)
    || (c.kind.hasArr && (match c.sArr with
        | some s => decide ((clampTime (rawArrival s c.delay) : Int) ≠ rawArrival s c.delay) | none => false))
    || (c.kind.hasDep && (match c.sDep with
        | some s => decide ((clampTime (rawDeparture s c.delay) : Int) ≠ rawDeparture s c.delay) | none => false))

/-- The scheduled reference time: arrival when present, departure otherwise (section 1.1). -/
def scheduledRef (sArr sDep : Option Nat) : Nat :=
  match sArr, sDep with
  | some a, _ => a
  | none, some d => d
  | none, none => 0

/-- The expected reference time: expected arrival when the call has an arrival, expected departure otherwise. -/
def CallRec.expectedRef (c : CallRec) : Nat := scheduledRef c.expectedArr c.expectedDep

/-- The announced delay minutes 0..121 (R38). -/
def announcedMinutes (d : Option Int) : Nat :=
  let dc := clampedDelay d
  if dc ≤ 0 then 0 else min 121 ((dc.toNat + 59) / 60)

/-- The number phrase of 0..120 (Table 4-2). -/
def numberPhrase (n : Nat) : Nat := 16 + n

/-- The phrases of a service minute as a clock time of day (R40). -/
def minutePhrases (m : Nat) : List Nat :=
  let day := (m + 120) % 1440
  let hour := day / 60
  let minute := day % 60
  if minute = 0 then [numberPhrase hour, 137]
  else if minute ≤ 9 then [numberPhrase hour, 138, numberPhrase minute]
  else [numberPhrase hour, numberPhrase minute]

/-- SCHED-TIME of a scheduled time (R40). -/
def schedPhrases (s : Nat) : List Nat := minutePhrases (s / 60)

/-- EXP-TIME of a scheduled time and announced minutes (R40). -/
def expPhrases (s m : Nat) : List Nat := minutePhrases (s / 60 + min 120 m)

/-- DELAY-MIN of announced minutes (R41). -/
def delayPhrases (m : Nat) : List Nat :=
  if m = 121 then [141] else if m = 1 then [numberPhrase 1, 143] else [numberPhrase m, 140]

/-- The reference time a job's times refer to (R39): none without one. -/
def referenceSide (o : Origin) (kind : CallKind) : LadderSide :=
  match o with
  | .ladder _ step => if step ≤ 6 then .arrival else .departure
  | .presence _ => .arrival
  | .delay _ side => side
  | _ => if kind.hasDep then .departure else .arrival

/-- The two zone lists cleaned (R25): each zone once, required zones not optional, optional ones cut from the end to 16
zones in all. -/
def cleanZones (required optional : List Nat) : List Nat × List Nat :=
  let req := firstPlaces required
  let opt := (firstPlaces optional).filter (fun z => !req.contains z)
  (req, opt.take (16 - req.length))

/-- The zone lists of a selector at a face (R25). -/
def selectorZones (sel : Selector) (f : FaceCfg) : List Nat × List Nat :=
  match sel with
  | .face => cleanZones f.zones []
  | .faceConcourse => cleanZones f.zones f.concourse
  | .concourse => cleanZones f.concourse []

end Sys2Proof.Machine
end

