-- ==== Sys2Proof/Machine/Binding.lean ====
section
/-! DEFINITION. Templates and their expansion (R59 to R62, R75), directory entries and the directory cache (R74, R78,
R79). -/

namespace Sys2Proof.Machine

open Sys2Proof

/-! ### Templates (R75, Table 11-17) -/

/-- The variables of a template. -/
inductive Variable where
  | platform | dest | origin | operator | via | schedTime | expTime | delayMin | frontCoaches | oldPlatform
  deriving DecidableEq, Repr

/-- The value of a template item; `absent` for one that is not valid. -/
inductive ItemValue where
  | fixed (phrase : Nat)
  | gap (len : Nat)
  | var (v : Variable)
  | absent
  deriving DecidableEq, Repr

/-- A template item with its index and its essential mark. -/
structure Item where
  index : Nat
  essential : Bool
  value : ItemValue
  deriving DecidableEq, Repr

/-- The variable codes. -/
def decodeVariable : Nat → ItemValue
  | 1 => .var .platform
  | 2 => .var .dest
  | 3 => .var .origin
  | 4 => .var .operator
  | 5 => .var .via
  | 6 => .var .schedTime
  | 7 => .var .expTime
  | 8 => .var .delayMin
  | 9 => .var .frontCoaches
  | 10 => .var .oldPlatform
  | _ => .absent

/-- Item `i`, 1..24, of a template. -/
def templateItem (data : List Byte) (i : Nat) : Item :=
  let at' := 4 + 4 * (i - 1)
  let k := byteAt data at'
  let v := twoAt data (at' + 1)
  { index := i, essential := decide (k / 32 % 2 = 1),
    value :=
      match k / 64 with
      | 0 => if v ≤ 4095 then .fixed v else .absent
      | 1 => if 10 ≤ v ∧ v ≤ 2550 then .gap v else .absent
      | 2 => decodeVariable v
      | _ => .absent }

/-- The items of a template; none when its item count is 0 or exceeds 24 (R75). -/
def templateItems (data : List Byte) : List Item :=
  let n := byteAt data 0
  if 24 < n then [] else (List.range n).map (fun i => templateItem data (i + 1))

/-- A phrase list: each phrase an essential FIXED item (R50, R59). -/
def phraseItems (l : List Nat) : List Item :=
  (List.range l.length).map (fun i => { index := i + 1, essential := true, value := .fixed (l.getD i 0) })

/-! ### Expansion (R59 to R61) -/

/-- What expansion reads: the snapshot, the origin, and the length of the snapshot's face. -/
structure Context where
  snapshot : Option Snapshot
  origin : Origin
  faceLength : Option Nat
  deriving DecidableEq, Repr

/-- The scheduled time of the reference of a job (R39). -/
def Context.reference (c : Context) : Option Nat :=
  c.snapshot.bind (fun s => match referenceSide c.origin s.kind with | .arrival => s.sArr | .departure => s.sDep)

/-- A calling-point list spoken in full (R59). -/
def viaFull : List Nat → List Nat
  | [] => []
  | [p] => [p]
  | [p, q] => [p, 139, q]
  | p :: rest => p :: viaFull rest

/-- A calling-point list, in full or cut to its first k points (R61). -/
def viaPhrases (cut : Option Nat) (points : List Nat) : List Nat :=
  match cut with
  | none => viaFull points
  | some k => if points = [] then [] else points.take k ++ [142]

/-- A phrase that is not 0; 0 means none (R59). -/
def someNonzero (p : Nat) : Option (List Nat) := if p = 0 then none else some [p]

/-- The phrases a variable contributes; none when it is absent (R59). -/
def variablePhrases (c : Context) (cut : Option Nat) : Variable → Option (List Nat)
  | .platform =>
    match c.snapshot, c.origin with
    | some s, _ => some [numberPhrase s.face]
    | none, .presence face => some [numberPhrase face]
    | none, _ => none
  | .dest => c.snapshot.map (fun s => [s.dest])
  | .origin => c.snapshot.bind (fun s => someNonzero s.origin)
  | .operator => c.snapshot.bind (fun s => someNonzero s.operator)
  | .via => c.snapshot.bind (fun s => if s.points = [] then none else some (viaPhrases cut s.points))
  | .schedTime => c.reference.map schedPhrases
  | .expTime => c.reference.bind (fun t => c.snapshot.map (fun s => expPhrases t (announcedMinutes s.delay)))
  | .delayMin => c.reference.bind (fun _ => c.snapshot.map (fun s => delayPhrases (announcedMinutes s.delay)))
  | .frontCoaches =>
    c.snapshot.bind (fun s =>
      if s.formation = 0 then none
      else c.faceLength.map (fun n => if n < s.formation then [numberPhrase n] else []))
  | .oldPlatform => c.snapshot.bind (fun s => s.oldFace.map (fun f => [numberPhrase f]))

/-- A phrase entry not yet looked up; phrase 0 carries its 504 samples (R59). -/
def phraseEntry (i : Item) (p : Nat) : ListEntry :=
  .phrase { phrase := p, item := i.index, essential := i.essential, start := 0, blocks := 0,
            samples := if p = 0 then blockSamples else 0 }

/-- The entries an item contributes; none when it is absent (R59). -/
def itemEntries (c : Context) (cut : Option Nat) (i : Item) : Option (List ListEntry) :=
  match i.value with
  | .fixed p => some [phraseEntry i p]
  | .gap len => some [.gap i.index len]
  | .var v => (variablePhrases c cut v).map (fun l => l.map (phraseEntry i))
  | .absent => none

/-- The list that items expand to. -/
def expandWith (c : Context) (cut : Option Nat) (items : List Item) : List ListEntry :=
  (items.map (fun i => (itemEntries c cut i).getD [])).flatten

/-- The largest k, from `k` down, for which the list fits in 48; 0 when none does (R61). -/
def bestCut (c : Context) (items : List Item) : Nat → Nat
  | 0 => 0
  | k + 1 => if (expandWith c (some (k + 1)) items).length ≤ 48 then k + 1 else bestCut c items k

/-- An item that speaks calling points. -/
def Item.isVia (c : Context) (i : Item) : Bool :=
  i.value = .var .via && (match c.snapshot with | some s => !s.points.isEmpty | none => false)

/-- The expanded list of at most 48 entries, and whether it was cut (R61). -/
def expandItems (c : Context) (items : List Item) : List ListEntry × Bool :=
  let full := expandWith c none items
  if full.length ≤ 48 then (full, false)
  else if items.any (Item.isVia c) then
    ((expandWith c (some (bestCut c items 12)) items).take 48, true)
  else (full.take 48, true)

/-- An essential item is absent (R60). -/
def essentialAbsent (c : Context) (items : List Item) : Bool := items.any (fun i => i.essential && (itemEntries c none i).isNone)

/-- An item that speaks a time or the delay (R60). -/
def Item.isTimed (i : Item) : Bool :=
  i.value = .var .schedTime || i.value = .var .expTime || i.value = .var .delayMin

/-- The list holds an entry of a timed item (R60). -/
def speaksTime (c : Context) (items : List Item) : Bool :=
  items.any (fun i => i.isTimed && (match itemEntries c none i with | some (_ :: _) => true | _ => false))

/-! ### Airing duration (R62) -/

/-- The sample counts of an entry: sixteen a millisecond for a gap. -/
def ListEntry.periods : ListEntry → Nat
  | .phrase p => p.samples
  | .gap _ len => ms len

/-- The airing duration in seconds, rounded up (R62). -/
def airingDuration (l : List ListEntry) : Nat := ((l.map ListEntry.periods).sum + 15999) / 16000

/-- The list cut from its end to 180 s; `n` entries are looked at (R62). -/
def cutDuration : Nat → List ListEntry → List ListEntry
  | 0, l => l
  | n + 1, l => if airingDuration l ≤ 180 then l else cutDuration n l.dropLast

/-! ### Places in the flash (R73) -/

/-- The byte address of a block (R73). -/
def blockAddress (b : Nat) : Nat := b * 512

/-- The directory block of a phrase's entry, and the entry's place in it (R73). -/
def directoryPlace (phrase : Nat) : Nat × Nat := (phrase / 64, phrase % 64)

/-- The block of a template, and the quarter of it that the template is (R73). -/
def templatePlace (t : Nat) : Nat × Nat := (64 + t / 4, t % 4)

/-- The byte address of a binding read, and how many bytes it reads (R73). -/
def BindRead.span : BindRead → Nat × Nat
  | .template t => (blockAddress (templatePlace t).1 + (templatePlace t).2 * 128, 128)
  | .directory b => (blockAddress b, 512)

/-! ### Directory entries and cache (R74, R78, R79) -/

/-- A directory entry is usable (R74). -/
def entryUsable (start count samples flags : Nat) : Bool :=
  decide (count ≠ 0 ∧ flags < 128 ∧ 128 ≤ start ∧ blockSamples * (count - 1) + 1 ≤ samples ∧ samples ≤ blockSamples * count)

/-- A phrase entry with what the directory block says of it; an empty entry has sample count 0 (R74, R79). -/
def lookUp (block : List Byte) (p : PhraseEntry) : PhraseEntry :=
  let at' := 8 * (directoryPlace p.phrase).2
  let start := threeAt block at'
  let count := byteAt block (at' + 3)
  let samples := threeAt block (at' + 4)
  { p with start := start, blocks := count,
           samples := if entryUsable start count samples (byteAt block (at' + 7)) then samples else 0 }

/-- The entries looked up from the cache in list order, and from the first miss on those still to look up (R79). -/
def lookUps (cache : Option (Nat × List Byte)) : List ListEntry → List ListEntry × List ListEntry
  | [] => ([], [])
  | .gap i len :: rest =>
    let r := lookUps cache rest
    (.gap i len :: r.1, r.2)
  | .phrase p :: rest =>
    if p.phrase = 0 then
      let r := lookUps cache rest
      (.phrase p :: r.1, r.2)
    else
      match cache with
      | some (b, block) =>
        if b = (directoryPlace p.phrase).1 then
          let r := lookUps cache rest
          (.phrase (lookUp block p) :: r.1, r.2)
        else ([], .phrase p :: rest)
      | none => ([], .phrase p :: rest)

/-- The directory block the first entry still to look up lies in (R73). -/
def neededBlock : List ListEntry → Option Nat
  | .phrase p :: _ => some (directoryPlace p.phrase).1
  | _ => none

end Sys2Proof.Machine
end

