-- ==== Sys2Proof/Machine/Operands.lean ====
section
/-! DEFINITION. Every operand form of the block: the line frame and its payloads (sections 11.1 and 11.2), decoded with
the tests of R188 and built as R189 gives. -/

namespace Sys2Proof.Machine

open Sys2Proof

/-! ### Codes carried in payloads (Table 11-8) -/

/-- Zone numbers 1..254. -/
def zonesInRange (l : List Nat) : Bool := l.all (fun z => decide (1 ≤ z ∧ z ≤ 254))

/-- Verdict codes: a denial carries value 0 and no fault mark, only GRANTED may carry the fault mark (R188). -/
def decodeVerdict (code : Nat) (mark : Bool) (value : Nat) : Option Verdict :=
  match code with
  | 1 => if value ≤ 2000 then some (.granted value mark) else none
  | 2 => if 1 ≤ value ∧ value ≤ 6 ∧ mark = false then some (.queued value) else none
  | 3 => if value = 0 ∧ mark = false then some (.denied .busy) else none
  | 4 => if value = 0 ∧ mark = false then some (.denied .fault) else none
  | 5 => if value = 0 ∧ mark = false then some (.denied .quiet) else none
  | 6 => if value = 0 ∧ mark = false then some (.denied .trunk) else none
  | 7 => if value = 0 ∧ mark = false then some (.denied .cls) else none
  | _ => none

/-- The verdict code of a denial. -/
def Denial.code : Denial → Nat
  | .busy => 3
  | .fault => 4
  | .quiet => 5
  | .trunk => 6
  | .cls => 7

/-- The two bytes a verdict takes after its zone. -/
def encodeVerdict : Verdict → List Nat
  | .granted ready mark => [16 + 8 * bit mark + ready / 256, ready % 256]
  | .queued position => [32, position]
  | .denied d => [16 * d.code, 0]

/-- Revocation reasons. -/
def decodeReason : Nat → Option Reason
  | 1 => some .preempted
  | 2 => some .displaced
  | 3 => some .expired
  | 4 => some .waitExpired
  | 5 => some .reset
  | _ => none

/-- The code of a revocation reason. -/
def Reason.code : Reason → Nat
  | .preempted => 1
  | .displaced => 2
  | .expired => 3
  | .waitExpired => 4
  | .reset => 5

/-- Origin kinds. -/
def decodeOriginKind : Nat → Option OriginKind
  | 1 => some .ladder
  | 2 => some .delay
  | 3 => some .presence
  | 4 => some .alteration
  | 5 => some .cancellation
  | 6 => some .console
  | 7 => some .trigger
  | 8 => some .replay
  | _ => none

/-- The code of an origin kind. -/
def OriginKind.code : OriginKind → Nat
  | .ladder => 1
  | .delay => 2
  | .presence => 3
  | .alteration => 4
  | .cancellation => 5
  | .console => 6
  | .trigger => 7
  | .replay => 8

/-- Completion codes. -/
def decodeCode : Nat → Option Code
  | 0 => some .completed
  | 1 => some .stale
  | 2 => some .bindFail
  | 3 => some .failedPhrase
  | 4 => some .fetchStall
  | 5 => some .noTrunk
  | 6 => some .noZone
  | 7 => some .preempted
  | 8 => some .queueFull
  | 9 => some .displaced
  | 10 => some .superseded
  | 11 => some .suppressed
  | 12 => some .badRequest
  | 13 => some .noMatch
  | _ => none

/-- The number of a completion code. -/
def Code.number : Code → Nat
  | .completed => 0
  | .stale => 1
  | .bindFail => 2
  | .failedPhrase => 3
  | .fetchStall => 4
  | .noTrunk => 5
  | .noZone => 6
  | .preempted => 7
  | .queueFull => 8
  | .displaced => 9
  | .superseded => 10
  | .suppressed => 11
  | .badRequest => 12
  | .noMatch => 13

/-- The code of a participation state in STATUS; START sends nothing. -/
def PState.code : PState → Nat
  | .start => 0
  | .listen => 1
  | .active => 2
  | .quiet => 3
  | .isolated => 4

/-- Node kinds of a PROFILE (Table 11-6). -/
def decodeNodeKind : Nat → Option NodeKind
  | 1 => some .zoneNode
  | 2 => some .console
  | 3 => some .timetable
  | 4 => some .clock
  | _ => none

/-- The code of a node kind. -/
def NodeKind.code : NodeKind → Nat
  | .zoneNode => 1
  | .console => 2
  | .timetable => 3
  | .clock => 4

/-- Kinds of a call (Table 11-4). -/
def decodeCallKind : Nat → Option CallKind
  | 1 => some .arr
  | 2 => some .dep
  | 3 => some .arrDep
  | _ => none

/-- The code of a call kind. -/
def CallKind.code : CallKind → Nat
  | .arr => 1
  | .dep => 2
  | .arrDep => 3

/-! ### Payload decoding (R188) -/

/-- TIME (Table 11-3). -/
def decodeTime : List Nat → Option Payload
  | [a, b, c, d, e] => if c * 65536 + d * 256 + e < 86400 then some (.time (a * 256 + b) (c * 65536 + d * 256 + e)) else none
  | _ => none

/-- Phrase numbers of two bytes each, 0..4,095. -/
def decodePhrasePairs : List Nat → Option (List Nat)
  | [] => some []
  | a :: b :: rest =>
    if a * 256 + b ≤ 4095 then (decodePhrasePairs rest).map (fun l => (a * 256 + b) :: l) else none
  | _ => none

/-- A value that is there when its present bit is set, and must then be within its range. -/
def optionalIn (present : Bool) (value limit : Nat) : Option (Option Nat) :=
  if present then (if value ≤ limit then some (some value) else none) else some none

/-- A 16-bit two's complement number. -/
def signed16 (n : Nat) : Int := if n < 32768 then (n : Int) else (n : Int) - 65536

/-- CALL (Table 11-4); a time its kind does not have is taken as absent (R188), once it has passed the test of range that
every time with its present bit makes (log 59). -/
def decodeCall : List Nat → Option Payload
  | i0 :: i1 :: i2 :: rev :: y0 :: y1 :: face :: prev :: k :: a0 :: a1 :: a2 :: p0 :: p1 :: p2 :: r0 :: r1
      :: d0 :: d1 :: o0 :: o1 :: q0 :: q1 :: form :: n :: rest =>
    match decodeCallKind (k / 64), optionalIn (k / 16 % 2 = 1) (a0 * 65536 + a1 * 256 + a2) 107999,
        optionalIn (k / 8 % 2 = 1) (p0 * 65536 + p1 * 256 + p2) 107999, decodePhrasePairs rest with
    | some kind, some sArr, some sDep, some points =>
      if 1 ≤ face ∧ face ≤ 64 ∧ prev ≤ 64 ∧ k % 4 = 0 ∧ d0 * 256 + d1 ≤ 4095 ∧ o0 * 256 + o1 ≤ 4095
          ∧ q0 * 256 + q1 ≤ 4095 ∧ form ≤ 16 ∧ n ≤ 12 ∧ points.length = n then
        some (.call
          { id := i0 * 65536 + i1 * 256 + i2, rev := rev, day := y0 * 256 + y1, face := face,
            prev := if prev = 0 then none else some prev, kind := kind, cancelled := decide (k / 32 % 2 = 1),
            sArr := if kind.hasArr then sArr else none, sDep := if kind.hasDep then sDep else none,
            delay := if k / 4 % 2 = 1 then some (signed16 (r0 * 256 + r1)) else none,
            dest := d0 * 256 + d1, origin := o0 * 256 + o1, operator := q0 * 256 + q1, formation := form, points := points })
      else none
    | _, _, _, _ => none
  | _ => none

/-- Phrases packed in pairs, 12 bits each (Table 11-5): `count` phrases, and the bytes after them. -/
def unpackPhrases : Nat → List Nat → Option (List Nat × List Nat)
  | 0, rest => some ([], rest)
  | 1, a :: b :: rest => if a < 16 then some ([a * 256 + b], rest) else none
  | n + 2, a :: b :: c :: rest =>
    (unpackPhrases n rest).map (fun r => ((a * 16 + b / 16) :: (b % 16 * 256 + c) :: r.1, r.2))
  | _, _ => none

/-- The call match of an ANNOUNCE frame, and the bytes after it. -/
def decodeMatch (mode : Nat) (l : List Nat) : Option (Option CallMatch × List Nat) :=
  match mode, l with
  | 0, rest => some (none, rest)
  | 1, f :: a :: b :: c :: rest =>
    if f ≤ 64 then some (some (.exact f (a * 65536 + b * 256 + c)), rest) else none
  | 2, f :: a :: b :: c :: rest =>
    if f ≤ 64 ∧ a * 65536 + b * 256 + c ≤ 107999 then some (some (.firstAfter f (a * 65536 + b * 256 + c)), rest) else none
  | 3, f :: a :: b :: c :: rest =>
    if f ≤ 64 ∧ a * 65536 + b * 256 + c ≤ 107999 then some (some (.lastBefore f (a * 65536 + b * 256 + c)), rest) else none
  | _, _ => none

/-- The not-before of an ANNOUNCE frame, and the bytes after it. -/
def decodeNotBefore (present : Bool) (l : List Nat) : Option (Option Nat × List Nat) :=
  match present, l with
  | false, rest => some (none, rest)
  | true, a :: b :: c :: rest =>
    if a * 65536 + b * 256 + c ≤ 107999 then some (some (a * 65536 + b * 256 + c), rest) else none
  | true, _ => none

/-- The content of an ANNOUNCE frame, and the bytes after it. -/
def decodeContent (isList : Bool) (number : Nat) (l : List Nat) : Option (Content × List Nat) :=
  if isList then
    if 1 ≤ number ∧ number ≤ 16 then (unpackPhrases number l).map (fun r => (.phrases r.1, r.2)) else none
  else some (.template number, l)

/-- ANNOUNCE (Table 11-5). -/
def decodeAnnounce : List Nat → Option Payload
  | req :: k :: number :: rg :: r :: o :: rest =>
    match decodeMatch (k / 32 % 4) rest with
    | none => none
    | some (callMatch, rest) =>
      match decodeNotBefore (k / 16 % 2 = 1) rest with
      | none => none
      | some (notBefore, rest) =>
        match decodeContent (k / 128 = 1) number rest with
        | none => none
        | some (content, zones) =>
          if k % 16 = 0 ∧ 2 ≤ rg % 64 ∧ rg % 64 ≤ 60 ∧ r ≤ 16 ∧ o ≤ 16 ∧ r + o ≤ 16 ∧ zones.length = r + o
              ∧ zonesInRange zones = true then
            some (.announce
              { request := req, content := content, callMatch := callMatch, notBefore := notBefore, reps := rg / 64,
                gap := rg % 64, required := zones.take r, optional := zones.drop r })
          else none
  | _ => none

/-- NODE-CONTROL (Table 11-3). -/
def decodeControl : List Nat → Option Payload
  | [1] => some (.control .quiet)
  | [2] => some (.control .wake)
  | [3] => some (.control .serviceReset)
  | [4, face] => if face ≤ 64 then some (.control (.replayLast face)) else none
  | _ => none

/-- PROFILE (Table 11-6); its node number equals the header's source node (R188). -/
def decodeProfile (source : Nat) : List Nat → Option Payload
  | node :: kind :: rev :: k :: f :: z :: rest =>
    match decodeNodeKind kind with
    | none => none
    | some nodeKind =>
      if node = source ∧ k / 16 % 4 = 0 ∧ f ≤ 4 ∧ z ≤ 8 ∧ rest.length = f + z
          ∧ (rest.take f).all (fun x => decide (1 ≤ x ∧ x ≤ 64)) = true ∧ zonesInRange (rest.drop f) = true then
        some (.profile
          { node := node, kind := nodeKind, revision := rev, request := decide (k / 128 = 1),
            recovered := decide (k / 64 % 2 = 1), trunks := k % 16, faces := rest.take f, zones := rest.drop f })
      else none
  | _ => none

/-- SEIZE (Table 11-3). -/
def decodeSeize : List Nat → Option Payload
  | [trunk, tag, hold] => if trunk ≤ 3 ∧ hold ≤ 250 then some (.seize trunk tag hold) else none
  | _ => none

/-- FREE (Table 11-3). -/
def decodeFree : List Nat → Option Payload
  | [trunk, tag] => if trunk ≤ 3 then some (.free trunk tag) else none
  | _ => none

/-- ZONE-ASK (Table 11-7). -/
def decodeZoneAsk : List Nat → Option Payload
  | tag :: trunk :: duration :: n :: zones =>
    if trunk ≤ 3 ∧ duration ≤ 250 ∧ 1 ≤ n ∧ n ≤ 16 ∧ zones.length = n ∧ zonesInRange zones = true then
      some (.zoneAsk tag trunk duration zones)
    else none
  | _ => none

/-- The verdicts of a ZONE-ANSWER, three bytes each. -/
def decodeVerdicts : List Nat → Option (List (Nat × Verdict))
  | [] => some []
  | zone :: k :: v :: rest =>
    match decodeVerdict (k / 16) (k / 8 % 2 = 1) (k % 8 * 256 + v), decodeVerdicts rest with
    | some verdict, some l => if 1 ≤ zone ∧ zone ≤ 254 then some ((zone, verdict) :: l) else none
    | _, _ => none
  | _ => none

/-- ZONE-ANSWER (Table 11-7). -/
def decodeZoneAnswer : List Nat → Option Payload
  | tag :: n :: rest =>
    match decodeVerdicts rest with
    | some l => if 1 ≤ n ∧ n ≤ 8 ∧ l.length = n then some (.zoneAnswer tag l) else none
    | none => none
  | _ => none

/-- The entries of a ZONE-REVOKE, three bytes each. -/
def decodeRevokes : List Nat → Option (List RevokeEntry)
  | [] => some []
  | zone :: tag :: reason :: rest =>
    match decodeReason reason, decodeRevokes rest with
    | some r, some l => if 1 ≤ zone ∧ zone ≤ 254 then some ({ zone := zone, tag := tag, reason := r } :: l) else none
    | _, _ => none
  | _ => none

/-- ZONE-REVOKE (Table 11-7). -/
def decodeZoneRevoke : List Nat → Option Payload
  | n :: rest =>
    match decodeRevokes rest with
    | some l => if 1 ≤ n ∧ n ≤ 16 ∧ l.length = n then some (.zoneRevoke l) else none
    | none => none
  | _ => none

/-- ZONE-LEAVE (Table 11-7). -/
def decodeZoneLeave : List Nat → Option Payload
  | tag :: n :: zones =>
    if 1 ≤ n ∧ n ≤ 16 ∧ zones.length = n ∧ zonesInRange zones = true then some (.zoneLeave tag zones) else none
  | _ => none

/-- The reference of a JOB-REPORT (Table 11-9); a face outside 1..64 or a node outside 1..63 is malformed (log 50). -/
def decodeReportRef (kind a b c : Nat) : Option ReportRef :=
  match kind with
  | 1 => some (.call (a * 65536 + b * 256 + c))
  | 2 => if a = 0 ∧ b = 0 ∧ 1 ≤ c ∧ c ≤ 64 then some (.face c) else none
  | 3 => if a = 0 ∧ 1 ≤ b ∧ b ≤ 63 then some (.console b c) else none
  | 4 => if a = 0 ∧ b = 0 ∧ c ≤ 1 then some (.input c) else none
  | 5 => if a = 0 ∧ b = 0 ∧ c ≤ 64 then some (.replay c) else none
  | _ => none

/-- The content of a JOB-REPORT (Table 11-9). -/
def decodeReportContent (kind n : Nat) : Option ReportContent :=
  match kind with
  | 0 => some (.template n)
  | 1 => some (.phrases n)
  | 2 => if n = 0 then some (.none 0) else none
  | _ => none

/-- The degraded flags of a JOB-REPORT. -/
def decodeFlags (n : Nat) : Option Degraded :=
  if n % 4 = 0 then
    some { phraseSkipped := decide (n / 128 = 1), underrun := decide (n / 64 % 2 = 1), truncated := decide (n / 32 % 2 = 1),
           optionalMissed := decide (n / 16 % 2 = 1), zoneFaulted := decide (n / 8 % 2 = 1),
           clampedTime := decide (n / 4 % 2 = 1) }
  else none

/-- JOB-REPORT (Table 11-9). -/
def decodeJobReport : List Nat → Option Payload
  | [tag, k, a, b, c, ck, cn, code, flags, airings, zonesAired, remaining] =>
    match decodeOriginKind (k / 16), decodeReportRef (k % 16) a b c, decodeReportContent ck cn, decodeCode code,
        decodeFlags flags with
    | some origin, some ref, some content, some code, some flags =>
      some (.jobReport { tag := tag, origin := origin, ref := ref, content := content, code := code, flags := flags,
                         airings := airings, zonesAired := zonesAired, remaining := remaining })
    | _, _, _, _, _ => none
  | _ => none

/-- The FAULT payload at the head of some bytes, and the bytes after it (Table 11-9). -/
def decodeFaultPart : List Nat → Option (FaultBody × List Nat)
  | seq :: k :: n :: rest =>
    match rest.drop n with
    | m :: sensors =>
      if k % 16 = 0 ∧ n ≤ 8 ∧ m ≤ 8 ∧ n ≤ rest.length ∧ m ≤ sensors.length then
        some ({ seq := seq, set := { flashPort := decide (k / 128 = 1), safeConfig := decide (k / 64 % 2 = 1),
                                     isolatedRecovered := decide (k / 32 % 2 = 1), clockUnknown := decide (k / 16 % 2 = 1),
                                     zoneLine := rest.take n, sensor := sensors.take m } }, sensors.drop m)
      else none
    | [] => none
  | _ => none

/-- FAULT (Table 11-9). -/
def decodeFault (l : List Nat) : Option Payload :=
  match decodeFaultPart l with
  | some (body, []) => some (.fault body)
  | _ => none

/-- Counters of two bytes each. -/
def decodeCounters : List Nat → List Nat
  | a :: b :: rest => (a * 256 + b) :: decodeCounters rest
  | _ => []

/-- STATUS (Table 11-9). -/
def decodeStatus : List Nat → Option Payload
  | state :: k :: rest =>
    match decodeFaultPart rest with
    | some (body, counters) =>
      if 1 ≤ state ∧ state ≤ 4 ∧ k % 128 = 0 ∧ counters.length = 32 then
        some (.status { state := state, safe := decide (k / 128 = 1), fault := body, counters := decodeCounters counters })
      else none
    | none => none
  | _ => none

/-- The payload of a kind code (Table 11-2); none when the frame is malformed (R188). -/
def decodePayload (kind source : Nat) (p : List Nat) : Option Payload :=
  match kind with
  | 1 => decodeTime p
  | 2 => decodeCall p
  | 3 => decodeAnnounce p
  | 4 => decodeControl p
  | 5 => if p = [] then some .statusQuery else none
  | 6 => decodeProfile source p
  | 8 => decodeSeize p
  | 9 => decodeFree p
  | 10 => decodeZoneAsk p
  | 11 => decodeZoneAnswer p
  | 12 => decodeZoneRevoke p
  | 13 => decodeZoneLeave p
  | 16 => decodeJobReport p
  | 17 => decodeFault p
  | 18 => decodeStatus p
  | _ => none

/-! ### The whole frame (Table 11-1, R187) -/

/-- How many bytes the header's length field asks for: header, payload and check (R187). -/
def frameLength (bytes : List Byte) : Nat := 4 + byteAt bytes 3 % 64 + 2

/-- A frame is good when all its bytes have arrived and its check agrees (R187). -/
def frameGood (bytes : List Byte) : Bool :=
  decide (4 ≤ bytes.length ∧ frameLength bytes ≤ bytes.length
    ∧ twoAt bytes (frameLength bytes - 2) = crc16 (bytes.take (frameLength bytes - 2)))

/-- The frame that good bytes hold; none when it is malformed (R188). -/
def decodeFrame (bytes : List Byte) : Option Frame :=
  let b0 := byteAt bytes 0
  let b1 := byteAt bytes 1
  let b2 := byteAt bytes 2
  let b3 := byteAt bytes 3
  let payload := (slice bytes 4 (b3 % 64)).map BitVec.toNat
  if b0 % 64 = 0 ∨ b1 % 4 ≠ 0 ∨ 64 ≤ b2 ∨ 61 ≤ b3 then none
  else
    (decodePayload (b1 / 8) (b0 % 64) payload).map fun p =>
      { cls := Cls.ofBits (b0 / 64), source := b0 % 64, dest := b2, alt := decide (b1 / 4 % 2 = 1), payload := p }

/-! ### Payload building (R189) -/

/-- Three bytes of a number, as numbers. -/
def num3 (n : Nat) : List Nat := [n / 65536, n / 256 % 256, n % 256]

/-- Two bytes of a number, as numbers. -/
def num2 (n : Nat) : List Nat := [n / 256, n % 256]

/-- A 16-bit two's complement number as an unsigned one. -/
def unsigned16 (i : Int) : Nat := (i % 65536).toNat

/-- CALL (Table 11-4); this node builds none, the form serves the tests of the decoder. -/
def encodeCall (c : CallBody) : List Nat :=
  num3 c.id ++ [c.rev] ++ num2 c.day ++ [c.face, c.prev.getD 0,
    64 * c.kind.code + 32 * bit c.cancelled + 16 * bit c.sArr.isSome + 8 * bit c.sDep.isSome + 4 * bit c.delay.isSome]
  ++ num3 (c.sArr.getD 0) ++ num3 (c.sDep.getD 0) ++ num2 (unsigned16 (c.delay.getD 0)) ++ num2 c.dest ++ num2 c.origin
  ++ num2 c.operator ++ [c.formation, c.points.length] ++ (c.points.map num2).flatten

/-- Phrases packed in pairs (Table 11-5). -/
def packPhrases : List Nat → List Nat
  | [] => []
  | [a] => num2 a
  | a :: b :: rest => [a / 16, a % 16 * 16 + b / 256, b % 256] ++ packPhrases rest

/-- The call match of an ANNOUNCE frame: its mode and its bytes. -/
def encodeMatch : Option CallMatch → Nat × List Nat
  | none => (0, [])
  | some (.exact f i) => (1, f :: num3 i)
  | some (.firstAfter f s) => (2, f :: num3 s)
  | some (.lastBefore f s) => (3, f :: num3 s)

/-- ANNOUNCE (Table 11-5); this node sends none (R169), the form serves the tests of the decoder. -/
def encodeAnnounce (a : AnnounceBody) : List Nat :=
  let kind := match a.content with | .template _ => 0 | .phrases _ => 1
  let number := match a.content with | .template t => t | .phrases ps => ps.length
  let phrases := match a.content with | .template _ => [] | .phrases ps => packPhrases ps
  [a.request, 128 * kind + 32 * (encodeMatch a.callMatch).1 + 16 * bit a.notBefore.isSome, number,
    64 * a.reps + a.gap, a.required.length, a.optional.length]
  ++ (encodeMatch a.callMatch).2 ++ (match a.notBefore with | some s => num3 s | none => []) ++ phrases
  ++ a.required ++ a.optional

/-- The reference of a JOB-REPORT: its kind and its three bytes. -/
def encodeReportRef : ReportRef → Nat × List Nat
  | .call i => (1, num3 i)
  | .face f => (2, [0, 0, f])
  | .console n r => (3, [0, n, r])
  | .input n => (4, [0, 0, n])
  | .replay f => (5, [0, 0, f])

/-- The content of a JOB-REPORT. -/
def encodeReportContent : ReportContent → List Nat
  | .template n => [0, n]
  | .phrases n => [1, n]
  | .none _ => [2, 0]

/-- The degraded flags of a JOB-REPORT. -/
def encodeFlags (d : Degraded) : Nat :=
  128 * bit d.phraseSkipped + 64 * bit d.underrun + 32 * bit d.truncated + 16 * bit d.optionalMissed
    + 8 * bit d.zoneFaulted + 4 * bit d.clampedTime

/-- The FAULT payload (Table 11-9). -/
def encodeFault (f : FaultBody) : List Nat :=
  [f.seq, 128 * bit f.set.flashPort + 64 * bit f.set.safeConfig + 32 * bit f.set.isolatedRecovered
    + 16 * bit f.set.clockUnknown, f.set.zoneLine.length] ++ f.set.zoneLine ++ [f.set.sensor.length] ++ f.set.sensor

/-- The kind code of a payload (Table 11-2). -/
def Payload.kind : Payload → Nat
  | .time _ _ => 1
  | .call _ => 2
  | .announce _ => 3
  | .control _ => 4
  | .statusQuery => 5
  | .profile _ => 6
  | .seize _ _ _ => 8
  | .free _ _ => 9
  | .zoneAsk _ _ _ _ => 10
  | .zoneAnswer _ _ => 11
  | .zoneRevoke _ => 12
  | .zoneLeave _ _ => 13
  | .jobReport _ => 16
  | .fault _ => 17
  | .status _ => 18

/-- The payload bytes of a frame, as numbers (Tables 11-3 to 11-9). -/
def encodePayload : Payload → List Nat
  | .time day second => num2 day ++ num3 second
  | .call c => encodeCall c
  | .announce a => encodeAnnounce a
  | .control .quiet => [1]
  | .control .wake => [2]
  | .control .serviceReset => [3]
  | .control (.replayLast face) => [4, face]
  | .statusQuery => []
  | .profile p =>
    [p.node, p.kind.code, p.revision, 128 * bit p.request + 64 * bit p.recovered + p.trunks, p.faces.length, p.zones.length]
      ++ p.faces ++ p.zones
  | .seize trunk tag hold => [trunk, tag, hold]
  | .free trunk tag => [trunk, tag]
  | .zoneAsk tag trunk duration zones => [tag, trunk, duration, zones.length] ++ zones
  | .zoneAnswer tag verdicts => [tag, verdicts.length] ++ (verdicts.map (fun v => v.1 :: encodeVerdict v.2)).flatten
  | .zoneRevoke entries => [entries.length] ++ (entries.map (fun e => [e.zone, e.tag, e.reason.code])).flatten
  | .zoneLeave tag zones => [tag, zones.length] ++ zones
  | .jobReport r =>
    [r.tag, 16 * r.origin.code + (encodeReportRef r.ref).1] ++ (encodeReportRef r.ref).2 ++ encodeReportContent r.content
      ++ [r.code.number, encodeFlags r.flags, r.airings, r.zonesAired, r.remaining]
  | .fault f => encodeFault f
  | .status s => [s.state, 128 * bit s.safe] ++ encodeFault s.fault ++ (s.counters.map num2).flatten

/-- A frame's arbitration field, byte 0 of its header: the class, then the source node (R164, R187). -/
def Frame.arbitration (f : Frame) : Nat := 64 * f.cls.rank + f.source

/-- Header and payload of a frame (Table 11-1). -/
def frameBody (f : Frame) : List Byte :=
  toBytes ([f.arbitration, 8 * f.payload.kind + 4 * bit f.alt, f.dest, (encodePayload f.payload).length]
    ++ encodePayload f.payload)

/-- The bytes of a frame on the line: header, payload and check (R187). -/
def encodeFrame (f : Frame) : List Byte := frameBody f ++ two (crc16 (frameBody f))

end Sys2Proof.Machine
end

