-- ==== Sys2Proof/Machine/Queue.lean ====
section
/-! DEFINITION. The transmit queue (R167): handing a frame over, queueing by class and then by enqueue order, the
removal of the youngest class-3 frame, refusal, withdrawal and emptying; and the counters of Table 10-2. -/

namespace Sys2Proof.Machine

open Sys2Proof

/-- The place of a counter in Table 10-2. -/
def Counter.index : Counter → Nat
  | .receiveOverruns => 0
  | .duplicatesDropped => 1
  | .staleRevisions => 2
  | .tableFull => 3
  | .framesDropped => 4
  | .spoils => 5
  | .malformedFrames => 6
  | .fetchRetries => 7
  | .phraseFailures => 8
  | .underruns => 9
  | .presenceWithoutCall => 10
  | .jobsCompleted => 11
  | .jobsFailed => 12
  | .zoneHomeConflicts => 13
  | .correctedFields => 14
  | .faultChanges => 15

/-- One increment of a counter that saturates at 65,535 (R186). -/
def saturate (v : Nat) : Nat := if v < 65535 then v + 1 else 65535

/-- An increment of a counter (R186). -/
def Works.bump (c : Counter) (w : Works) : Works :=
  { w with report := { w.report with counters := w.report.counters.modify c.index saturate } }

/-- Several increments of a counter. -/
def Works.bumpBy (c : Counter) : Nat → Works → Works
  | 0, w => w
  | n + 1, w => (w.bump c).bumpBy c n

/-- The value of a counter. -/
def Works.counter (w : Works) (c : Counter) : Nat := w.report.counters.getD c.index 0

/-- A frame this node builds: its number as source, alternation bit 0 (R189). -/
def mkFrame (e : Env) (cls : Cls) (dest : Nat) (payload : Payload) : Frame :=
  { cls := cls, source := e.part.node, dest := dest, alt := false, payload := payload }

/-- A frame takes its place in the queue: after every frame of the same or a better class (R167). -/
def enqueueFrame (f : TxFrame) : List TxFrame → List TxFrame
  | [] => [f]
  | g :: rest => if f.frame.cls.better g.frame.cls then f :: g :: rest else g :: enqueueFrame f rest

/-- The youngest class-3 frame not in transmission, and the queue without it (R167). -/
def dropYoungest : List TxFrame → Option (TxFrame × List TxFrame)
  | [] => none
  | g :: rest =>
    match dropYoungest rest with
    | some (x, r) => some (x, g :: r)
    | none => if g.frame.cls = .information ∧ g.sending = false then some (g, rest) else none

/-- A frame refused or removed is counted, and its block is told: a SEIZE attempt is lost (R135), a ZONE-ASK starts its
answer timers (R141); the other blocks need no word. -/
def Works.unsent (f : Frame) (p : TxPurpose) (w : Works) : Works :=
  let w := w.bump .framesDropped
  match f.payload, p with
  | .seize trunk tag _, _ => w.post (.seizeLost tag trunk)
  | .zoneAsk tag _ _ _, .ask serial => w.post (.askUnsent tag serial)
  | _, _ => w

/-- A frame is queued at its place. -/
def Works.queueFrame (f : Frame) (p : TxPurpose) (w : Works) : Works :=
  { w with line := { w.line with tx := enqueueFrame { frame := f, purpose := p, sending := false, doomed := false } w.line.tx } }

/-- A block hands a frame to the Line Interface (R167).  Nothing is sent in START, and while the node is ISOLATED every
frame but the isolation PROFILE is refused. -/
def Works.hand (e : Env) (f : Frame) (p : TxPurpose) (w : Works) : Works :=
  if e.part.state = .start then w
  else if e.part.state = .isolated ∧ p ≠ .isolationProfile then w.unsent f p
  else if w.line.tx.length < txCapacity then w.queueFrame f p
  else if f.cls = .information then w.unsent f p
  else
    match dropYoungest w.line.tx with
    | some (x, rest) => ({ w with line := { w.line with tx := rest } }.queueFrame f p).unsent x.frame x.purpose
    | none => w.unsent f p

/-- Several frames handed over in turn. -/
def Works.handAll (e : Env) (fs : List Frame) (w : Works) : Works := fs.foldl (fun w f => w.hand e f .plain) w

/-- A SEIZE still in the queue and not in transmission is withdrawn, without a count (R136, R167). -/
def Works.withdrawSeize (tag trunk : Nat) (w : Works) : Works :=
  let mine (t : TxFrame) : Bool :=
    match t.frame.payload with
    | .seize k g _ => k = trunk && g = tag && !t.sending
    | _ => false
  { w with line := { w.line with tx := w.line.tx.filter (fun t => !mine t) } }

/-- The queue is emptied but for a frame in transmission, which goes to its end (R167, R177, R178). -/
def Line.emptyQueue (l : Line) : Line :=
  { l with tx := (l.tx.filter (·.sending)).map (fun t => { t with doomed := true }) }

/-- The receive FIFO is emptied; an echo then has no frame ahead of it (R177, R178). -/
def Line.emptyFifo (l : Line) : Line :=
  { l with rx := [], echo := l.echo.map (fun x => { x with ahead := 0 }) }

/-- A PROFILE of this node is in the queue, in transmission or not (R171). -/
def Line.hasProfile (l : Line) : Bool :=
  l.tx.any (fun t => match t.frame.payload with | .profile _ => true | _ => false)

/-- An isolation PROFILE is in the queue (R177). -/
def Line.hasIsolationProfile (l : Line) : Bool := l.tx.any (fun t => t.purpose = .isolationProfile)

end Sys2Proof.Machine
end

