-- ==== Sys2Proof/Machine/Flags.lean ====
section
/-! DEFINITION. The Report Unit (chapter 10): fault set, FAULT output, FAULT frames, JOB-REPORT and STATUS frames; and
the zone outputs as the flags of other blocks drive them. -/

namespace Sys2Proof.Machine

open Sys2Proof

/-! ### The fault set -/

/-- The set holds at least one condition. -/
def FaultSet.nonempty (f : FaultSet) : Bool :=
  f.flashPort || f.safeConfig || f.isolatedRecovered || f.clockUnknown || !f.zoneLine.isEmpty || !f.sensor.isEmpty

/-- ZONE-LINE(z) placed (R125), at its place by zone number (log 49). -/
def FaultSet.placeZoneLine (z : Nat) (f : FaultSet) : FaultSet := { f with zoneLine := insertAsc z f.zoneLine }

/-- ZONE-LINE(z) removed (R125). -/
def FaultSet.removeZoneLine (z : Nat) (f : FaultSet) : FaultSet := { f with zoneLine := f.zoneLine.filter (· ≠ z) }

/-- SENSOR(z) placed (R158), at its place by zone number (log 49). -/
def FaultSet.placeSensor (z : Nat) (f : FaultSet) : FaultSet := { f with sensor := insertAsc z f.sensor }

/-- SENSOR(z) removed (R159). -/
def FaultSet.removeSensor (z : Nat) (f : FaultSet) : FaultSet := { f with sensor := f.sensor.filter (· ≠ z) }

/-- The changes one event makes to the fault set (R180, R182): when they leave the set different, the sequence number
advances, the change is counted, and a FAULT frame with the whole set is handed over. -/
def Works.faultEvent (e : Env) (f : FaultSet → FaultSet) (w : Works) : Works :=
  if f w.report.faults = w.report.faults then w
  else
    let seq := (w.report.seq + 1) % 256
    let w : Works := { w with report := { w.report with faults := f w.report.faults, seq := seq } }
    (w.bump .faultChanges).hand e (mkFrame e .safety 0 (.fault { seq := seq, set := w.report.faults })) .plain

/-- The FAULT output (R181). -/
def faultOutput (e : Env) (w : Works) : Bool :=
  w.report.faults.nonempty || (e.part.state = .start && e.part.phase = .heldByNodeZero)

/-! ### Job reports (R184) -/

/-- The completion groups of Table 3-4. -/
inductive CodeGroup where
  | normal | afterStart | neverStarted
  deriving DecidableEq, Repr

/-- The group of a completion code (Table 3-4). -/
def Code.group : Code → CodeGroup
  | .completed => .normal
  | .stale | .bindFail | .failedPhrase | .fetchStall | .noTrunk | .noZone | .preempted => .afterStart
  | .queueFull | .displaced | .superseded | .suppressed | .badRequest | .noMatch => .neverStarted

/-- The mask bit of a group. -/
def maskSends (m : ReportMask) : CodeGroup → Bool
  | .normal => m.normal
  | .afterStart => m.afterStart
  | .neverStarted => m.neverStarted

/-- The origin kind a report names. -/
def Origin.kind : Origin → OriginKind
  | .ladder _ _ => .ladder
  | .delay _ _ => .delay
  | .presence _ => .presence
  | .alteration _ => .alteration
  | .cancellation _ => .cancellation
  | .console _ _ => .console
  | .trigger _ => .trigger
  | .replay _ => .replay

/-- The reference of a report: the call id where the origin speaks for a call, else what the origin names (R184). -/
def Origin.ref (o : Origin) (callRef : Option CallRef) : ReportRef :=
  match o with
  | .ladder _ _ | .delay _ _ | .alteration _ | .cancellation _ => .call ((callRef.map (·.id)).getD 0)
  | .presence face => match callRef with | some r => .call r.id | none => .face face
  | .console node request => .console node request
  | .trigger input => .input input
  | .replay face => .replay face

/-- The content a report names. -/
def Content.report : Content → ReportContent
  | .template t => .template t
  | .phrases ps => .phrases ps.length

/-- The Report Unit takes a report: counters first, then the frame when the mask sends its group (R184). -/
def Works.takeReport (e : Env) (b : ReportBody) (w : Works) : Works :=
  let w :=
    match b.code.group with
    | .normal => w.bump .jobsCompleted
    | .afterStart => w.bump .jobsFailed
    | .neverStarted => w
  if maskSends e.part.cfg.mask b.code.group then w.hand e (mkFrame e .information 0 (.jobReport b)) .plain else w

/-! ### STATUS (R185) -/

/-- The STATUS frame that answers a query of node `dest`. -/
def statusFrame (e : Env) (w : Works) (dest : Nat) : Frame :=
  mkFrame e .information dest
    (.status { state := e.part.state.code, safe := e.part.safe, fault := { seq := w.report.seq, set := w.report.faults },
               counters := w.report.counters })

/-! ### PROFILE (R171, R189) -/

/-- The PROFILE this node builds, its faces in position order and its zones in output order (log 58). -/
def profileFrame (e : Env) (w : Works) (request : Bool) : Frame :=
  mkFrame e .operational 0
    (.profile
      { node := e.part.node, kind := .zoneNode, revision := 1, request := request,
        recovered := w.report.faults.isolatedRecovered, trunks := 15,
        faces := e.faces.filterMap (fun f => f.map (·.cfg.number)), zones := w.zones.recs.map (·.zone) })

/-! ### Outputs of a zone (R104, R107) -/

/-- AMP-ON is asserted in SETTLING, SPEAKING and HOLDING (R107). -/
def ZoneState.ampOn : ZoneState → Bool
  | .idle => false
  | .settling | .speaking | .holding => true

/-- The source selector names the holder's source in SPEAKING and is NONE in every other state (R107). -/
def ZoneRec.selector (z : ZoneRec) : Option Source :=
  if z.state = .speaking then z.holder.map (·.source) else none

/-- What a zone audio output carries: silence, a channel's value, or the receive input of a trunk, with the attenuation
in half-dB units. -/
inductive AudioOut where
  | silence
  | linear (value : Int) (attenuation : Nat)
  | trunkIn (trunk attenuation : Nat)
  deriving DecidableEq, Repr

/-- The zone record that drives an output 0..7. -/
def Works.zoneOfOutput (w : Works) (output : Nat) : Option ZoneRec := w.zones.recs.find? (fun z => z.outputs.contains output)

/-- The AMP-ON line of an output (R106, R107). -/
def ampOnLine (w : Works) (output : Nat) : Bool :=
  match w.zoneOfOutput output with
  | some z => z.state.ampOn
  | none => false

/-- The zone audio output ZAUD of an output (R104, R107, R163). -/
def zoneAudio (w : Works) (output : Nat) : AudioOut :=
  match w.zoneOfOutput output with
  | none => .silence
  | some z =>
    let att := ((w.level z.zone).map (·.attenuation)).getD 127
    match z.selector with
    | none => .silence
    | some (.channel c) => .linear (w.channel c).output att
    | some (.trunk t) => .trunkIn t att

/-- The trunk output TKOUT: the output of the channel whose transmit selector names the trunk; none when this node
places no carrier on it (R105). -/
def trunkOut (w : Works) (t : Nat) : Option Int :=
  (w.channels.find? (fun c => c.transmit = some t)).map (·.output)

end Sys2Proof.Machine
end

