-- ==== Sys2Proof/Machine/Level.lean ====
section
/-! DEFINITION. Level Control (chapter 8): readings, sensor faults, the hold, the target level and the attenuation; and
the meanings of AMBIENT_READING_CYCLE, SILENCE_TIMER_EXPIRY and RELEASE_TIMER_EXPIRY. -/

namespace Sys2Proof.Machine

open Sys2Proof

/-- Sixteen times the zone's default ambient, which is kept in half-dB units (R153, R158). -/
def LevelEntry.defaultEstimate (l : LevelEntry) : Nat := 8 * l.settings.ambient

/-- The effective ambient, in sixteenths of a dB (R153). -/
def LevelEntry.effectiveAmbient (l : LevelEntry) : Nat := l.estimate.getD l.defaultEstimate

/-- The target level in half-dB units: stages 1 and 2 of R162. -/
def LevelEntry.target (l : LevelEntry) (c : Cls) : Nat :=
  let raw := (l.effectiveAmbient + 7) / 8 + l.settings.margin c
  if raw < l.settings.floor then l.settings.floor else if l.settings.ceiling < raw then l.settings.ceiling else raw

/-- The attenuation in half-dB units: stage 3 of R162, 0..127. -/
def LevelEntry.attenuationFor (l : LevelEntry) (c : Cls) : Nat := min 127 (l.settings.full - l.target c)

/-- An entry as it is built on leaving START (R153). -/
def buildLevel (now : Instant) (zone reading : Nat) (s : LevelSettings) : LevelEntry :=
  { zone := zone, reading := reading, sensor := .awaiting, estimate := none, pendingDefault := false, hold := .opened,
    release := none, silence := now + sec 10, attenuation := 127, settings := s }

/-- The arbiter asks the attenuation of a zone for a class; it is recorded as applied (R126, R162, R163). -/
def Works.askLevel (zone : Nat) (c : Cls) (w : Works) : Works :=
  w.modLevel zone (fun l => { l with attenuation := l.attenuationFor c })

/-- The end of a hold: OPEN, and a pending default is applied (R156, R160). -/
def LevelEntry.openHold (l : LevelEntry) : LevelEntry :=
  if l.pendingDefault then
    { l with hold := .opened, release := none, estimate := some l.defaultEstimate, pendingDefault := false }
  else { l with hold := .opened, release := none }

/-- AMP-ON asserted (R156). -/
def LevelEntry.ampAsserted (l : LevelEntry) : LevelEntry := { l with hold := .held, release := none }

/-- AMP-ON taken off (R156). -/
def LevelEntry.ampTakenOff (now : Instant) (releaseTime : Nat) (l : LevelEntry) : LevelEntry :=
  if releaseTime = 0 then l.openHold else { l with hold := .releasing, release := some (now + sec releaseTime) }

/-- The arbiter reports AMP-ON of a zone before and after a change (R107, R156). -/
def Works.reportAmp (e : Env) (zone : Nat) (before after : Bool) (w : Works) : Works :=
  if before = after then w
  else if after then w.modLevel zone LevelEntry.ampAsserted
  else w.modLevel zone (LevelEntry.ampTakenOff e.now e.part.cfg.settings.release)

/-- A good reading moves the estimate one eighth of the way, truncated toward zero (R157). -/
def smoothed (estimate reading : Nat) : Nat :=
  ((estimate : Int) + Int.tdiv ((8 * reading : Nat) - (estimate : Int)) 8).toNat

/-- A good reading (R154, R157, R159). -/
def LevelEntry.good (reading : Nat) (l : LevelEntry) : LevelEntry :=
  match l.sensor, l.hold with
  | .tracking, .opened => { l with estimate := some (smoothed l.effectiveAmbient reading) }
  | .awaiting, .opened => { l with estimate := some (8 * reading), sensor := .tracking }
  | .fault, .opened => { l with estimate := some (8 * reading), sensor := .tracking, pendingDefault := false }
  | .fault, _ => { l with sensor := .awaiting, pendingDefault := false }
  | _, _ => l

/-- The fault of a sensor in AWAITING or TRACKING (R158); nothing more in FAULT. -/
def LevelEntry.faulted (l : LevelEntry) : LevelEntry :=
  match l.sensor, l.hold with
  | .fault, _ => l
  | _, .opened => { l with sensor := .fault, estimate := some l.defaultEstimate, pendingDefault := false }
  | _, _ => { l with sensor := .fault, pendingDefault := true }

/-- The result of a reading position in one cycle (R154). -/
def LevelEntry.reads (now : Instant) (result : Option Nat) (l : LevelEntry) : LevelEntry :=
  match result with
  | none => l
  | some r =>
    let l := { l with silence := now + sec 10 }
    if 40 ≤ r ∧ r ≤ 240 then l.good r else l.faulted

/-- The silence timer runs out (R155). -/
def LevelEntry.silent (now : Instant) (l : LevelEntry) : LevelEntry := { l.faulted with silence := now + sec 10 }

/-- The SENSOR condition of an entry in the fault set (R158, R159). -/
def FaultSet.followSensor (f : FaultSet) (l : LevelEntry) : FaultSet :=
  if l.sensor = .fault then f.placeSensor l.zone else f.removeSensor l.zone

/-- Level entries are replaced by one event and the SENSOR conditions follow them, as one change of the fault set (R180). -/
def Works.setLevels (e : Env) (ls : List LevelEntry) (w : Works) : Works :=
  { w with levels := ls }.faultEvent e (fun f => ls.foldl FaultSet.followSensor f)

/-- The reading of one position reaches the entry that takes it (R154): an event of its own (R180). -/
def Works.readPosition (e : Env) (position : Nat) (result : Option Nat) (w : Works) : Works :=
  w.setLevels e (w.levels.map (fun l => if l.reading = position then l.reads e.now result else l))

/-- The readings of a cycle from one position on, in ascending order of position (R154, log 34). -/
def Works.readFrom (e : Env) : Nat → List (Option Nat) → Works → Works
  | _, [], w => w
  | position, result :: rest, w => Works.readFrom e (position + 1) rest (w.readPosition e position result)

/-- AMBIENT_READING_CYCLE (R154): every entry takes the result of its position. -/
def ambientReadings (readings : List (Option Nat)) (n : Node) : Node :=
  if n.env.part.state = .start then n else { n with ws := n.ws.readFrom n.env 0 readings }

/-- SILENCE_TIMER_EXPIRY (R155). -/
def silenceExpires (zone : Nat) (n : Node) : Node :=
  if n.env.part.state = .start then n
  else
    let levels := n.ws.levels.map (fun l => if l.zone = zone then l.silent n.env.now else l)
    { n with ws := n.ws.setLevels n.env levels }

/-- RELEASE_TIMER_EXPIRY (R156, R160): the release timer of a zone's level entry runs out. -/
def releaseExpires (zone : Nat) (n : Node) : Node :=
  { n with ws := n.ws.modLevel zone (fun l => if l.release.isSome then l.openHold else l) }

end Sys2Proof.Machine
end

