-- ==== Sys2Proof/Machine/Playout.lean ====
section
/-! DEFINITION. The fetch streams (sections 4.3, 4.4 and 4.6), the flash arbiter, and the playout channels (chapter 5):
walking a list, requesting and issuing reads, filling, starting, playing one sample period, underrun, stopping and
releasing. -/

namespace Sys2Proof.Machine

open Sys2Proof

/-! ### The channel FIFO (R91) -/

/-- An item that is a sample. -/
def FifoItem.isSample : FifoItem → Bool
  | .sample _ _ _ => true
  | _ => false

/-- The list position an item carries; LIST-END ranks after every position. -/
def FifoItem.listPosition : FifoItem → Option Nat
  | .sample _ p _ => some p
  | .phraseStart p _ _ => some p
  | .phraseEnd p => some p
  | .gap p _ _ => some p
  | .silence p _ => some p
  | .phraseFailed p _ => some p
  | .listEnd => none

/-- The fill: samples held (R91). -/
def Channel.fill (c : Channel) : Nat := c.fifo.countP FifoItem.isSample

/-- The claim of a stream's read in flight (R82, R91). -/
def Stream.claim (s : Stream) : Nat := if s.inFlight.isSome then blockSamples else 0

/-- The free space of a channel's FIFO (R91). -/
def Works.freeSpace (w : Works) (n : Nat) : Nat := fifoCapacity - (w.channel n).fill - (w.stream n).claim

/-- Items placed behind what a FIFO holds. -/
def Works.place (n : Nat) (items : List FifoItem) (w : Works) : Works :=
  w.modChannel n (fun c => { c with fifo := c.fifo ++ items })

/-- The samples of one list position are removed and its PHRASE-FAILED marker joins the FIFO (R97). -/
def Works.placeFailed (n position : Nat) (essential : Bool) (w : Works) : Works :=
  w.modChannel n (fun c =>
    { c with fifo := c.fifo.filter (fun i => !(i.isSample && i.listPosition = some position))
                       ++ [.phraseFailed position essential] })

/-! ### Streams: end, stop, walk (R81, R88, R89) -/

/-- A stream without a list; blocks remaining is 0 (log 39), the list position stays and the stop point is absent
(log 46). -/
def Stream.toIdle (s : Stream) : Stream := { s with state := .idle, list := [], remaining := 0, stopPoint := none }

/-- A stream that is to fetch no more: ENDING while its read is on the port, IDLE otherwise. -/
def Stream.quit (s : Stream) : Stream := if s.inFlight.isSome then { s with state := .ending } else s.toIdle

/-- The end of R89. -/
def Stream.finishOff (s : Stream) : Stream :=
  match s.state with
  | .idle | .ending => s
  | .running => s.quit
  | .finished => s.toIdle

/-- The stop at the phrase boundary of R89, with the position of the entry now playing. -/
def Stream.stopAt (p : Nat) (s : Stream) : Stream :=
  match s.state with
  | .idle | .ending => s
  | .running => if s.position ≤ p then { s with stopPoint := some p } else s.quit
  | .finished => s.toIdle

/-- A stop point is set at or before a position (R81, R88). -/
def Stream.stopsBy (s : Stream) (p : Nat) : Bool :=
  match s.stopPoint with
  | some q => decide (q ≤ p)
  | none => false

/-- A phrase fails (R88): counted, marked, and reported by its essential mark. -/
def Works.failPhrase (n position : Nat) (essential : Bool) (w : Works) : Works :=
  ((w.bump .phraseFailures).placeFailed n position essential).post
    (.channel n (if essential then .essentialFailed else .phraseSkipped))

/-- The stream takes up the entries of a list from one position on, until one needs reads or the list is at its end
(R81, R86, R88).  Blocks remaining is 0 once it is past an entry (log 39). -/
def Works.takeUp (n : Nat) : Nat → List ListEntry → Works → Works
  | _, [], w => (w.place n [.listEnd]).modStream n (fun s => { s with state := .finished, remaining := 0 })
  | pos, .gap item len :: rest, w =>
    let w := (w.place n [.gap pos item len]).modStream n (fun s => { s with position := pos, remaining := 0 })
    if (w.stream n).stopsBy pos then w.modStream n Stream.toIdle else Works.takeUp n (pos + 1) rest w
  | pos, .phrase p :: rest, w =>
    let w := w.modStream n (fun s => { s with position := pos, remaining := 0 })
    if p.phrase = 0 then
      let w := w.place n [.silence pos p.item]
      if (w.stream n).stopsBy pos then w.modStream n Stream.toIdle else Works.takeUp n (pos + 1) rest w
    else if p.samples = 0 then
      let w := w.failPhrase n pos p.essential
      if (w.stream n).stopsBy pos then w.modStream n Stream.toIdle
      else if p.essential then w.modStream n (fun s => { s with state := .finished })
      else Works.takeUp n (pos + 1) rest w
    else (w.place n [.phraseStart pos p.item p.phrase]).modStream n (fun s => { s with remaining := p.blocks })

/-- The stream or the FIFO of a channel has changed: the start condition is tested and the arbiter looks (R84, R93). -/
def Works.fetchChanged (n : Nat) (w : Works) : Works := w.postAll [.testStart n, .flashLook]

/-- The stream moves on from the entry it has left (R81). -/
def Works.nextEntry (n : Nat) (w : Works) : Works :=
  let s := w.stream n
  if s.stopsBy s.position then w.modStream n Stream.toIdle
  else w.takeUp n (s.position + 1) (s.list.drop (s.position + 1))

/-- A start of a stream in IDLE or FINISHED (R81). -/
def Works.beginList (e : Env) (n : Nat) (list : List ListEntry) (w : Works) : Works :=
  ((w.modStream n (fun s =>
      { s with state := .running, list := list, position := 0, remaining := 0, stopPoint := none,
               budget := e.part.cfg.settings.budget, restart := none })).takeUp n 0 list).fetchChanged n

/-- A start of a stream (R81): in RUNNING or ENDING it is an end, and then the start once the stream is IDLE. -/
def Works.startStream (e : Env) (n : Nat) (list : List ListEntry) (w : Works) : Works :=
  let w := w.modStream n (fun s => match s.state with | .running | .ending => s.finishOff | _ => s)
  if (w.stream n).state = .ending then w.modStream n (fun s => { s with restart := some list })
  else w.beginList e n list

/-- A read of a stream in ENDING has completed (R89): IDLE, a waiting start is taken, and the channel is told: FLUSHING
becomes FREE (R103). -/
def Works.streamSettled (e : Env) (n : Nat) (w : Works) : Works :=
  let again := (w.stream n).restart
  let w := w.modStream n (fun s => { s.toIdle with inFlight := none, restart := none })
  let w :=
    if (w.channel n).state = .flushing then (w.modChannel n (fun c => { c with state := .free })).post .dispatch else w
  match again with
  | some list => w.beginList e n list
  | none => w

/-! ### Requests and the flash arbiter (R82, R84) -/

/-- The phrase entry a stream is fetching. -/
def Stream.current (s : Stream) : Option PhraseEntry :=
  match s.list[s.position]? with
  | some (.phrase p) => some p
  | _ => none

/-- A stream has a phrase entry still to read. -/
def Stream.unread (s : Stream) : Bool := s.state = .running && decide (0 < s.remaining)

/-- A stream is requesting (R82). -/
def Works.requesting (w : Works) (n : Nat) : Bool :=
  let s := w.stream n
  s.unread && s.inFlight.isNone && decide (blockSamples ≤ w.freeSpace n)

/-- A requesting stream is urgent when its fill is at or below the almost-empty value (R84). -/
def Works.urgent (e : Env) (w : Works) (n : Nat) : Bool :=
  w.requesting n && decide ((w.channel n).fill ≤ e.part.cfg.settings.almostEmpty)

/-- The stream whose read the arbiter issues, if any is requesting (R84). -/
def Works.chooseStream (e : Env) (w : Works) : Option Nat :=
  match w.requesting 0, w.requesting 1 with
  | false, false => none
  | true, false => some 0
  | false, true => some 1
  | true, true =>
    match w.urgent e 0, w.urgent e 1 with
    | true, false => some 0
    | false, true => some 1
    | _, _ => some (1 - w.flash.lastServed)

/-- A stream's read is issued: the block is start block + (count − remaining), the index count − remaining (R82, R84). -/
def Works.issueAudio (n : Nat) (w : Works) : Works :=
  match (w.stream n).current with
  | none => w
  | some p =>
    let index := p.blocks - (w.stream n).remaining
    let w := w.modStream n (fun s => { s with inFlight := some (InFlight.mk (p.start + index) p.phrase index) })
    let flash := { w.flash with port := some (.audio n), lastServed := n }
    { w with flash := flash }

/-- The byte address of the read on the port, and how many bytes it reads (R73, R82). -/
def Works.portSpan (w : Works) : Option (Nat × Nat) :=
  match w.flash.port with
  | none => none
  | some (.bind _ read _) => some read.span
  | some (.audio n) => (w.stream n).inFlight.map (fun r => (blockAddress r.block, 512))

/-- The flash arbiter looks (R84). -/
def Works.lookAtFlash (e : Env) (w : Works) : Works :=
  if w.flash.port.isSome then w
  else
    match w.chooseStream e with
    | some n => w.issueAudio n
    | none =>
      match w.flash.waiting with
      | [] => w
      | r :: rest => { w with flash := { w.flash with port := some (.bind r.channel r.read true), waiting := rest } }

/-- A binding asks for a read that needs the port (R79). -/
def Works.askRead (channel : Nat) (read : BindRead) (w : Works) : Works :=
  let waiting := w.flash.waiting ++ [WaitingRead.mk channel read]
  let w : Works := { w with flash := { w.flash with waiting := waiting } }
  w.post .flashLook

/-- The binding on a channel has ended: its waiting read is withdrawn, and one on the port answers nobody (R79). -/
def Works.dropReads (channel : Nat) (w : Works) : Works :=
  { w with flash := { w.flash with
      waiting := w.flash.waiting.filter (fun r => r.channel ≠ channel),
      port := w.flash.port.map (fun r =>
        match r with
        | .bind c read live => .bind c read (live && decide (c ≠ channel))
        | .audio n => .audio n) } }

/-! ### Audio reads (R76, R83, R85 to R88) -/

/-- The outcomes of an answered audio read (R76). -/
inductive AudioOutcome where
  | good | unreadable | misplaced
  deriving DecidableEq, Repr

/-- The outcome of an answered read made for an index of a phrase (R76). -/
def audioOutcome (data : List Byte) (phrase index : Nat) : AudioOutcome :=
  if crc32 (data.take 508) ≠ twoAt data 508 * 65536 + twoAt data 510 then .unreadable
  else if twoAt data 504 ≠ phrase ∨ twoAt data 506 ≠ index then .misplaced
  else .good

/-- The samples of a block that play: all 504, or what the last block of the phrase holds (R74, R83). -/
def playable (p : PhraseEntry) (remaining : Nat) : Nat :=
  if remaining = 1 then p.samples - blockSamples * (p.blocks - 1) else blockSamples

/-- A good read (R83). -/
def Works.goodRead (n : Nat) (p : PhraseEntry) (data : List Byte) (e : Env) (w : Works) : Works :=
  let s := w.stream n
  let w := w.place n ((data.take (playable p s.remaining)).map (fun b => .sample b s.position p.item))
  let w := w.modStream n (fun s => { s with remaining := s.remaining - 1, budget := e.part.cfg.settings.budget })
  if s.remaining = 1 then (w.place n [.phraseEnd s.position]).nextEntry n else w

/-- The phrase a stream is reading fails (R86 to R88). -/
def Works.failCurrent (n : Nat) (p : PhraseEntry) (w : Works) : Works :=
  let s := w.stream n
  let w := w.failPhrase n s.position p.essential
  if s.stopsBy s.position then w.modStream n Stream.toIdle
  else if p.essential then w.modStream n (fun s => { s with state := .finished })
  else w.nextEntry n

/-- What a RUNNING stream does with an answered read (R83, R85, R86). -/
def Works.takeAudio (n : Nat) (p : PhraseEntry) (r : InFlight) (data : List Byte) (e : Env) (w : Works) : Works :=
  match audioOutcome data r.phrase r.index with
  | .good => w.goodRead n p data e
  | .misplaced => w.failCurrent n p
  | .unreadable =>
    if 1 ≤ (w.stream n).budget then
      (w.modStream n (fun s => { s with budget := s.budget - 1 })).bump .fetchRetries
    else w.failCurrent n p

/-- The port comes free. -/
def Works.freePort (w : Works) : Works := { w with flash := { w.flash with port := none } }

/-- The completion of the audio read on the port; `data` is none for a no-response read (R76, R87, R89). -/
def Works.audioRead (e : Env) (n : Nat) (data : Option (List Byte)) (w : Works) : Works :=
  let w := (w.freePort).faultEvent e (fun f => { f with flashPort := data.isNone })
  let s := w.stream n
  let w :=
    if s.state = .ending then w.streamSettled e n
    else
      let w := w.modStream n (fun s => { s with inFlight := none })
      match s.inFlight, s.current with
      | some r, some p =>
        match data with
        | some bytes => w.takeAudio n p r bytes e
        | none => w.failCurrent n p
      | _, _ => w
  w.fetchChanged n

/-! ### Decoding (R96) -/

/-- The magnitude of a companded sample. -/
def magnitude (b : Byte) : Nat := (2 * (b.toNat % 16) + 33) * 2 ^ (b.toNat / 16 % 8) - 33

/-- The linear value of a companded sample (R96, Table 11-19). -/
def decodeSample (b : Byte) : Int := if 128 ≤ b.toNat then -(magnitude b : Int) else (magnitude b : Int)

/-! ### Start of an airing (R93, R94) -/

/-- The start condition of a channel in FILLING (R93). -/
def Works.startCondition (e : Env) (w : Works) (n : Nat) : Bool :=
  let c := w.channel n
  let s := w.stream n
  c.state = .filling
    && (decide (e.part.cfg.settings.prefill ≤ c.fill) || c.fifo.contains .listEnd
        || (s.unread && s.inFlight.isNone && decide (w.freeSpace n < blockSamples)))

/-- The start condition is tested; when it comes to hold it is reported (R93). -/
def Works.testStart (e : Env) (n : Nat) (w : Works) : Works :=
  let held := w.startCondition e n
  let before := (w.channel n).startHeld
  let w := if held = before then w else w.modChannel n (fun c => { c with startHeld := held })
  if held ∧ before = false then w.post (.channel n .startCondition) else w

/-- The start order, taken while the start condition holds (R94). -/
def Works.startPlaying (n : Nat) (trunk : Option Nat) (w : Works) : Works :=
  w.modChannel n (fun c =>
    { c with state := .playing, played := 0, underrunTotal := 0, underrunEpisode := none, startHeld := false, transmit := trunk,
             position := none, stopPosition := none })

/-! ### Release, discard, abort, stop (R101 to R103) -/

/-- What the release takes from the channel itself (R102). -/
def Channel.cleared (c : Channel) : Channel :=
  { c with fifo := [], position := none, stopPosition := none, startHeld := false, transmit := none, output := 0 }

/-- The release (R102): FREE when the stream is then IDLE, FLUSHING while its read is on the port. -/
def Works.release (n : Nat) (w : Works) : Works :=
  let w := w.modStream n Stream.finishOff
  if (w.stream n).state = .ending then w.modChannel n (fun c => { c.cleared with state := .flushing })
  else (w.modChannel n (fun c => { c.cleared with state := .free })).post .dispatch

/-- The discard or abort order by which a job that ends lets its channel go, and the release order from HELD; FREE and
FLUSHING take none (R102). -/
def Works.letGo (n : Nat) (w : Works) : Works :=
  match (w.channel n).state with
  | .free | .flushing => w
  | .reserved | .filling | .playing | .stopping | .held => w.release n

/-- The stop at the phrase boundary, taken in PLAYING (R101). -/
def Works.stopAtBoundary (n : Nat) (w : Works) : Works :=
  if (w.channel n).state ≠ .playing then w
  else
    match (w.channel n).position with
    | none => (w.post (.channel n .stopComplete)).release n
    | some p =>
      ((w.modChannel n (fun c =>
          { c with state := .stopping, stopPosition := some p.position,
                   fifo := c.fifo.filter (fun i => match i.listPosition with | some q => decide (q ≤ p.position) | none => false) })).modStream
        n (Stream.stopAt p.position)).fetchChanged n

/-- A channel is bound to a job that binds (R92): from FREE at a dispatch, from HELD at the end of a gap.  The phrases
played stand until the stream starts (R98). -/
def Works.reserve (n : Nat) (w : Works) : Works :=
  match (w.channel n).state with
  | .free | .held => w.modChannel n (fun c => { c with state := .reserved })
  | _ => w

/-- The stream of a channel starts and the channel fills (R92); the phrases played are 0 again (R98). -/
def Works.fillFrom (e : Env) (n : Nat) (list : List ListEntry) (w : Works) : Works :=
  (w.modChannel n (fun c => { c with state := .filling, played := 0 })).startStream e n list

/-! ### One sample period (R95 to R100) -/

/-- A channel plays in PLAYING and STOPPING. -/
def Channel.plays (c : Channel) : Bool := c.state = .playing || c.state = .stopping

/-- The stop entry of a channel in STOPPING is at this position (R101). -/
def Channel.stopsAt (c : Channel) (p : Nat) : Bool := c.state = .stopping && c.stopPosition = some p

/-- The stop entry has ended: stop complete is reported and the channel releases (R101). -/
def Works.stopEnds (n : Nat) (w : Works) : Works := (w.post (.channel n .stopComplete)).release n

/-- The counts of `k` underrun periods (R99, R100): total and episode held at their limits. -/
def Channel.starve (k : Nat) (c : Channel) : Channel :=
  { c with underrunTotal := min 4001 (c.underrunTotal + k), underrunEpisode := some (min 32001 (c.underrunEpisode.getD 0 + k)),
           output := 0 }

/-- `k` underrun periods in a row (R99, R100): the counter at the first of an episode, UNDERRUN when the total reaches
4,001, a stall when the episode reaches 32,001, and no count after a stall. -/
def Works.starve (n k : Nat) (w : Works) : Works :=
  let c := w.channel n
  if c.underrunEpisode = some 32001 then w
  else
    let w := if c.underrunEpisode.isNone then w.bump .underruns else w
    let w := w.modChannel n (Channel.starve k)
    let w := if c.underrunTotal < 4001 ∧ (w.channel n).underrunTotal = 4001 then w.post (.channel n .underrun) else w
    if (w.channel n).underrunEpisode = some 32001 then w.post (.channel n .stalled) else w

/-- The remaining time of the gap or silence entry now playing is over (R95, R101). -/
def Works.silentEntryEnds (n : Nat) (p : Playing) (w : Works) : Works :=
  let stops := (w.channel n).stopsAt p.position
  let w := w.modChannel n (fun c =>
    { c with position := none, output := 0, played := if p.kind = .silence then c.played + 1 else c.played })
  if stops then w.stopEnds n else w

/-- A channel takes markers from the head of its FIFO and then one sample, or counts an underrun period (R95, R97 to
R99); `fuel` bounds the markers taken.  A marker taken ends an underrun episode, and a FIFO found empty behind it begins
the next in the same period (log 40). -/
def Works.takeHead (n : Nat) : Nat → Works → Works
  | 0, w => w
  | fuel + 1, w =>
    let c := w.channel n
    match c.position, c.fifo with
    | some { position := p, item := i, kind := .gap, left := l }, _ =>
      if l ≤ 1 then w.silentEntryEnds n { position := p, item := i, kind := .gap, left := l }
      else w.modChannel n (fun c => { c with position := some { position := p, item := i, kind := .gap, left := l - 1 }, output := 0 })
    | some { position := p, item := i, kind := .silence, left := l }, _ =>
      if l ≤ 1 then w.silentEntryEnds n { position := p, item := i, kind := .silence, left := l }
      else w.modChannel n (fun c => { c with position := some { position := p, item := i, kind := .silence, left := l - 1 }, output := 0 })
    | _, [] => w.starve n 1
    | _, .sample b _ _ :: rest =>
      (w.modChannel n (fun c => { c with fifo := rest, output := decodeSample b, underrunEpisode := none })).fetchChanged n
    | _, .phraseStart p i _ :: rest =>
      Works.takeHead n fuel
        (w.modChannel n (fun c =>
          { c with fifo := rest, underrunEpisode := none, position := some { position := p, item := i, kind := .phrase, left := 0 } }))
    | _, .phraseEnd p :: rest =>
      let w := w.modChannel n (fun c => { c with fifo := rest, underrunEpisode := none, played := c.played + 1, position := none })
      if c.stopsAt p then w.stopEnds n else Works.takeHead n fuel w
    | _, .gap p i len :: rest =>
      Works.takeHead n fuel
        (w.modChannel n (fun c =>
          { c with fifo := rest, underrunEpisode := none, position := some { position := p, item := i, kind := .gap, left := ms len } }))
    | _, .silence p i :: rest =>
      Works.takeHead n fuel
        (w.modChannel n (fun c =>
          { c with fifo := rest, underrunEpisode := none,
                   position := some { position := p, item := i, kind := .silence, left := blockSamples } }))
    | pos, .phraseFailed p essential :: rest =>
      let named := match pos with | some q => decide (q.position = p) | none => false
      let w := w.modChannel n (fun c =>
        { c with fifo := rest, underrunEpisode := none, position := if named then none else c.position })
      if c.stopsAt p then w.stopEnds n
      else if essential ∧ c.state = .playing then (w.post (.channel n .failedAtBoundary)).release n
      else Works.takeHead n fuel w
    | _, .listEnd :: rest =>
      if c.state = .playing then
        (w.modChannel n (fun c =>
          { c with fifo := rest, underrunEpisode := none, position := none, state := .held, transmit := none, output := 0 })).post
          (.channel n .endOfAudio)
      else Works.takeHead n fuel (w.modChannel n (fun c => { c with fifo := rest }))

/-- One sample period of a channel (R95). -/
def Works.period (n : Nat) (w : Works) : Works :=
  let c := w.channel n
  if c.plays then w.takeHead n (c.fifo.length + 1) else w

/-- SAMPLE_PERIOD (R95): the carrier inputs are taken, and both channels have their period, channel 0 first
(log 47). -/
def samplePeriod (carrier : List Bool) (n : Node) : Node :=
  let env := { n.env with pins := { n.env.pins with carrier := carrier } }
  { env := env, ws := (n.ws.period 0).period 1 }

/-- The entry now playing is a gap or a silence. -/
def Channel.playingSilent (c : Channel) : Option Playing :=
  match c.position with
  | some p => if c.plays ∧ p.kind ≠ .phrase then some p else none
  | none => none

/-- A channel has run dry: it plays, its FIFO holds nothing, and no gap or silence plays (R99). -/
def Channel.dry (c : Channel) : Bool := c.plays && c.fifo.isEmpty && c.playingSilent.isNone

/-- GAP_SILENCE_END (R95). -/
def gapSilenceEnds (ch : Nat) (n : Node) : Node :=
  match (n.ws.channel ch).playingSilent with
  | some p => { n with ws := n.ws.silentEntryEnds ch p }
  | none => n

/-- UNDERRUN (R99): the underrun total of a dry channel reaches 4,001 periods. -/
def underrunReached (ch : Nat) (n : Node) : Node :=
  let c := n.ws.channel ch
  if c.dry ∧ c.underrunTotal < 4001 then { n with ws := n.ws.starve ch (4001 - c.underrunTotal) } else n

/-- STALL (R100): the underrun episode of a dry channel reaches 32,001 periods. -/
def stallReached (ch : Nat) (n : Node) : Node :=
  let c := n.ws.channel ch
  if c.dry then { n with ws := n.ws.starve ch (32001 - c.underrunEpisode.getD 0) } else n

/-! ### Service reset (R89, R103) -/

/-- A stream at service reset (R89). -/
def Stream.serviceReset (s : Stream) : Stream := { s.quit with restart := none }

/-- The Fetch Engine's service reset (R89): the cache is invalid, waiting reads are withdrawn. -/
def Flash.serviceReset (f : Flash) : Flash :=
  { cache := none,
    port := f.port.map (fun r => match r with | .bind c read _ => .bind c read false | .audio n => .audio n),
    waiting := [], lastServed := 1, streams := f.streams.map Stream.serviceReset }

/-- A channel's service reset, by the state its stream is left in (R90, R103). -/
def Channel.serviceReset (s : Stream) (c : Channel) : Channel :=
  { c.cleared with played := 0, underrunTotal := 0, underrunEpisode := none,
                   state := if s.state = .ending then .flushing else .free }

/-- Fetch Engine and channels take their service reset state. -/
def Works.resetAudio (w : Works) : Works :=
  let flash := w.flash.serviceReset
  { w with flash := flash, channels := List.zipWith Channel.serviceReset flash.streams w.channels }

end Sys2Proof.Machine
end

