-- ==== Sys2Proof/Machine/Zones.lean ====
section
/-! DEFINITION. The Zone Arbiter (chapter 6): asks and verdicts, preemption, the waiting list, leaves and moving on,
timers, line faults, entry to ISOLATED and service reset; and the meanings of the zone timers and of
LINE_FAULT_INPUT_CHANGE. -/

namespace Sys2Proof.Machine

open Sys2Proof

/-- One revocation (R124): the requester node, its class, and the entry. -/
structure Revocation where
  node : Nat
  cls : Cls
  entry : RevokeEntry
  deriving DecidableEq, Repr

/-! ### Zone records -/

/-- A zone record takes the place of the one of its zone, and AMP-ON is reported (R107). -/
def Works.setZone (e : Env) (z : ZoneRec) (w : Works) : Works :=
  let before := match w.zone z.zone with | some o => o.state.ampOn | none => false
  let w : Works := { w with zones := { w.zones with recs := w.zones.recs.map (fun o => if o.zone = z.zone then z else o) } }
  w.reportAmp e z.zone before z.state.ampOn

/-- The holder an ask becomes, its expiry timer started at the declared duration plus 5 s (R112). -/
def holderOf (now : Instant) (a : Ask) : Holder :=
  { node := a.node, tag := a.tag, cls := a.cls, source := a.source, duration := a.duration, expiry := now + sec (a.duration + 5) }

/-- The ask a waiting entry was made from. -/
def Waiter.ask (x : Waiter) : Ask := { node := x.node, tag := x.tag, cls := x.cls, source := x.source, duration := x.duration }

/-- A zone with a holder enters SPEAKING, and the attenuation is asked for the holder's class (R117, R126). -/
def Works.speak (e : Env) (z : ZoneRec) (w : Works) : Works :=
  let w := w.setZone e { z with state := .speaking, settle := none, hold := none }
  match z.holder with
  | some h => w.askLevel z.zone h.cls
  | none => w

/-! ### Verdicts (R109 to R117) -/

/-- Steps 2 to 5 of Table 6-3, which are made again at a promotion (R111, R120). -/
def deniedBy (e : Env) (w : Works) (z : ZoneRec) (a : Ask) : Option Denial :=
  if e.part.safe ∧ a.cls.isLow then some .cls
  else if (match a.source with
      | .channel _ => false
      | .trunk t => match w.trunk t with | some h => decide (h.node ≠ a.node) | none => false) then some .trunk
  else if e.part.state = .quiet ∧ a.cls.isLow then some .quiet
  else if z.fault ∧ a.cls.isLow then some .fault
  else none

/-- The ready delay of a grant now: the settle time remaining, rounded up to the ms, or 0 (R110, R114, R120). -/
def ZoneRec.readyNow (now : Instant) (z : ZoneRec) : Nat :=
  if z.state = .settling then (match z.settle with | some t => msLeft now t | none => 0) else 0

/-- The place of a requester node and job tag on a waiting list, counted from 1. -/
def positionOf (node tag : Nat) (l : List Waiter) : Nat := l.findIdx (fun x => x.node = node && x.tag = tag) + 1

/-- The verdict a requester node and job tag hold already (R110). -/
def currentVerdict (now : Instant) (z : ZoneRec) (node tag : Nat) : Option Verdict :=
  if (match z.holder with | some h => h.node = node && h.tag = tag | none => false) then
    some (.granted (z.readyNow now) z.fault)
  else if z.waiting.any (fun x => x.node = node && x.tag = tag) then some (.queued (positionOf node tag z.waiting))
  else none

/-- The waiting entry an ask becomes (R115). -/
def waiterOf (e : Env) (order : Nat) (a : Ask) : Waiter :=
  { node := a.node, tag := a.tag, cls := a.cls, source := a.source, duration := a.duration, order := order,
    wait := e.now + sec e.part.cfg.settings.waitLimit }

/-- A waiting entry is placed after every entry of the same or a better class (R115). -/
def placeWaiter (x : Waiter) (l : List Waiter) : List Waiter := insertBy (fun b a => !a.cls.better b.cls) x l

/-- Of two waiting entries, the first is the worse: worse class, or the same class and the newer arrival (R116). -/
def Waiter.worse (a b : Waiter) : Bool := b.cls.better a.cls || (a.cls = b.cls && decide (b.order < a.order))

/-- An ask is queued (R115). -/
def Works.queueAsk (e : Env) (z : ZoneRec) (a : Ask) (w : Works) : Works × Verdict :=
  let order := w.zones.arrivals + 1
  let waiting := placeWaiter (waiterOf e order a) z.waiting
  let w : Works := { w with zones := { w.zones with arrivals := order } }
  (w.setZone e { z with waiting := waiting }, .queued (positionOf a.node a.tag waiting))

/-- The revocation of a holder. -/
def Holder.revoke (h : Holder) (zone : Nat) (r : Reason) : Revocation :=
  { node := h.node, cls := h.cls, entry := { zone := zone, tag := h.tag, reason := r } }

/-- The revocation of a waiting entry. -/
def Waiter.revoke (x : Waiter) (zone : Nat) (r : Reason) : Revocation :=
  { node := x.node, cls := x.cls, entry := { zone := zone, tag := x.tag, reason := r } }

/-- The tests of Table 6-3 on a zone homed here. -/
def Works.askRecord (e : Env) (z : ZoneRec) (a : Ask) (w : Works) : Works × Verdict × List Revocation :=
  match currentVerdict e.now z a.node a.tag with
  | some v => (w, v, [])
  | none =>
    match deniedBy e w z a with
    | some d => (w, .denied d, [])
    | none =>
      match z.state, z.holder with
      | .idle, _ =>
        let settle := e.part.cfg.settings.settle
        let z' := { z with holder := some (holderOf e.now a) }
        if settle = 0 then (w.speak e z', .granted 0 z.fault, [])
        else (w.setZone e { z' with state := .settling, settle := some (e.now + ms settle) }, .granted settle z.fault, [])
      | .holding, _ => (w.speak e { z with holder := some (holderOf e.now a) }, .granted 0 z.fault, [])
      | _, some h =>
        if a.cls.better h.cls then
          let z' := { z with holder := some (holderOf e.now a) }
          let w' := if z.state = .speaking then w.speak e z' else w.setZone e z'
          (w', .granted (z.readyNow e.now) z.fault, [h.revoke z.zone .preempted])
        else if z.waiting.length < waitingCapacity then
          let r := w.queueAsk e z a
          (r.1, r.2, [])
        else
          match bestBy Waiter.worse z.waiting with
          | some x =>
            if a.cls.better x.cls then
              let r := w.queueAsk e { z with waiting := z.waiting.filter (fun y => y ≠ x) } a
              (r.1, r.2, [x.revoke z.zone .displaced])
            else (w, .denied .busy, [])
          | none => (w, .denied .busy, [])
      | _, none => (w, .denied .busy, [])

/-- The zones of an ask in its order: those the node homes get their verdicts, each against the record as the earlier
ones left it (R108). -/
def Works.askZones (e : Env) (a : Ask) : List Nat → Works → Works × List (Nat × Verdict) × List Revocation
  | [], w => (w, [], [])
  | zone :: rest, w =>
    match w.zone zone with
    | none => Works.askZones e a rest w
    | some z =>
      let r := w.askRecord e z a
      let s := Works.askZones e a rest r.1
      (s.1, (zone, r.2.1) :: s.2.1, r.2.2 ++ s.2.2)

/-! ### Revocations and unsolicited verdicts (R124, R189) -/

/-- A list in pieces of 16. -/
def chunks16 {α : Type} : Nat → List α → List (List α)
  | 0, _ => []
  | _, [] => []
  | n + 1, a :: l => (a :: l).take 16 :: chunks16 n ((a :: l).drop 16)

/-- The best class of some revocations. -/
def bestClass (l : List Revocation) : Cls :=
  match bestBy Cls.better (l.map (·.cls)) with
  | some c => c
  | none => .information

/-- The ZONE-REVOKE frames for one node: entries in ascending zone, 16 a frame (R189). -/
def revokeFramesTo (e : Env) (rs : List Revocation) (node : Nat) : List Frame :=
  let mine := sortBy (fun a b => decide (a.entry.zone ≤ b.entry.zone)) (rs.filter (fun r => r.node = node))
  (chunks16 mine.length mine).map (fun c => mkFrame e (bestClass c) node (.zoneRevoke (c.map (·.entry))))

/-- The ZONE-REVOKE frames for all other nodes, nodes in ascending number. -/
def revokeFrames (e : Env) (rs : List Revocation) : List Frame :=
  let others := (rs.map (·.node)).filter (· ≠ e.part.node)
  ((others.foldl (fun l n => insertAsc n l) []).map (revokeFramesTo e rs)).flatten

/-- Revocations are delivered: this node's to its Trunk and Request Unit, the others' in ZONE-REVOKE frames (R124). -/
def Works.revoke (e : Env) (rs : List Revocation) (w : Works) : Works :=
  let own := rs.filter (fun r => r.node = e.part.node)
  (w.postAll (own.map (fun r => .revoked r.entry.tag r.entry.zone r.entry.reason))).handAll e (revokeFrames e rs)

/-- An unsolicited verdict (R120): directly for a local entry, in a ZONE-ANSWER frame of its own for a remote one. -/
def Works.tell (e : Env) (x : Waiter) (zone : Nat) (v : Verdict) (w : Works) : Works :=
  if x.node = e.part.node then w.post (.verdict x.tag zone v)
  else w.hand e (mkFrame e x.cls x.node (.zoneAnswer x.tag [(zone, v)])) .plain

/-! ### Leaving and moving on (R119, R120) -/

/-- The heads of a waiting list that fail the tests of R120, with their denials, and the first that passes with the
entries behind it. -/
def nextHead (e : Env) (w : Works) (z : ZoneRec) : List Waiter → List (Waiter × Denial) × Option (Waiter × List Waiter)
  | [] => ([], none)
  | x :: rest =>
    match deniedBy e w z x.ask with
    | none => ([], some (x, rest))
    | some d =>
      let r := nextHead e w z rest
      ((x, d) :: r.1, r.2)

/-- A zone whose holder, of class `old`, has gone other than by preemption moves on (R120). -/
def Works.moveOn (e : Env) (z : ZoneRec) (old : Cls) (w : Works) : Works :=
  let next := nextHead e w z z.waiting
  let tellDenied (w : Works) : Works := next.1.foldl (fun w d => w.tell e d.1 z.zone (.denied d.2)) w
  match next.2 with
  | some (x, rest) =>
    let z' := { z with holder := some (holderOf e.now x.ask), waiting := rest }
    let w := w.setZone e z'
    let w := if z.state = .speaking ∧ x.cls ≠ old then w.askLevel z.zone x.cls else w
    (tellDenied w).tell e x z.zone (.granted (z.readyNow e.now) z.fault)
  | none =>
    let hold := e.part.cfg.settings.hold
    let z' := { z with holder := none, waiting := [], settle := none }
    tellDenied (w.setZone e
      (if hold = 0 then { z' with state := .idle, hold := none }
       else { z' with state := .holding, hold := some (e.now + sec hold) }))

/-- A leave of one zone (R119). -/
def Works.leaveOne (e : Env) (node tag zone : Nat) (w : Works) : Works :=
  match w.zone zone with
  | none => w
  | some z =>
    match z.holder with
    | some h =>
      if h.node = node ∧ h.tag = tag then w.moveOn e { z with holder := none } h.cls
      else w.setZone e { z with waiting := z.waiting.filter (fun x => !(x.node = node && x.tag = tag)) }
    | none => w

/-- A leave of several zones, in its order (R119). -/
def Works.leaveZones (e : Env) (node tag : Nat) (zones : List Nat) (w : Works) : Works :=
  zones.foldl (fun w zone => w.leaveOne e node tag zone) w

/-! ### Frames of other nodes -/

/-- The arbiter takes ZONE-ASK and ZONE-LEAVE frames in LISTEN, ACTIVE and QUIET (R108, R119). -/
def takesAsks (s : PState) : Bool := s = .listen || s = .active || s = .quiet

/-- A ZONE-ASK frame: the asks, the revocations, then the one ZONE-ANSWER (R108, R118).  A zone listed again is asked once,
at its first place (log 42), so the verdicts are at most as many as the zones homed here (R189). -/
def Works.askFrame (e : Env) (f : Frame) (tag trunk duration : Nat) (zones : List Nat) (w : Works) : Works :=
  if takesAsks e.part.state then
    let a : Ask := { node := f.source, tag := tag, cls := f.cls, source := .trunk trunk, duration := duration }
    let r := Works.askZones e a (firstPlaces zones) w
    let w := r.1.revoke e r.2.2
    if r.2.1 = [] then w else w.hand e (mkFrame e f.cls f.source (.zoneAnswer tag r.2.1)) .plain
  else w

/-- A ZONE-LEAVE frame (R119). -/
def Works.leaveFrame (e : Env) (f : Frame) (tag : Nat) (zones : List Nat) (w : Works) : Works :=
  if takesAsks e.part.state then w.leaveZones e f.source tag zones else w

/-! ### Timers -/

/-- The settle timer of a SETTLING zone runs out (R117). -/
def Works.settleExpires (e : Env) (zone : Nat) (w : Works) : Works :=
  match w.zone zone with
  | some z => if z.state = .settling ∧ z.settle.isSome then w.speak e z else w
  | none => w

/-- The hold timer of a HOLDING zone runs out (R121). -/
def Works.holdExpires (e : Env) (zone : Nat) (w : Works) : Works :=
  match w.zone zone with
  | some z => if z.state = .holding ∧ z.hold.isSome then w.setZone e { z with state := .idle, hold := none } else w
  | none => w

/-- The expiry timer of a holder runs out (R122). -/
def Works.holderExpires (e : Env) (zone : Nat) (w : Works) : Works :=
  match w.zone zone with
  | some z =>
    match z.holder with
    | some h => (w.revoke e [h.revoke zone .expired]).moveOn e { z with holder := none } h.cls
    | none => w
  | none => w

/-- The wait timer of a waiting entry runs out (R123). -/
def Works.waitExpires (e : Env) (zone node tag : Nat) (w : Works) : Works :=
  match w.zone zone with
  | some z =>
    match z.waiting.find? (fun x => x.node = node && x.tag = tag) with
    | some x =>
      (w.setZone e { z with waiting := z.waiting.filter (fun y => !(y.node = node && y.tag = tag)) }).revoke e
        [x.revoke zone .waitExpired]
    | none => w
  | none => w

/-! ### Line faults (R125) -/

/-- The line-fault flag of a record from the levels of its inputs: any of them (R125). -/
def lineFaultOf (zflt : List Bool) (outputs : List Nat) : Bool := outputs.any (levelAt zflt)

/-- Every record's line-fault flag follows its inputs. -/
def followLineFaults (zflt : List Bool) (recs : List ZoneRec) : List ZoneRec :=
  recs.map (fun z => { z with fault := lineFaultOf zflt z.outputs })

/-- The ZONE-LINE condition of a record in the fault set. -/
def FaultSet.followLine (f : FaultSet) (z : ZoneRec) : FaultSet :=
  if z.fault then f.placeZoneLine z.zone else f.removeZoneLine z.zone

/-- LINE_FAULT_INPUT_CHANGE (R125). -/
def lineFaultChanges (output : Nat) (level : Bool) (n : Node) : Node :=
  let env := { n.env with pins := { n.env.pins with zflt := n.env.pins.zflt.set output level } }
  let recs := followLineFaults env.pins.zflt n.ws.zones.recs
  let ws : Works := { n.ws with zones := { n.ws.zones with recs := recs } }
  { env := env, ws := ws.faultEvent env (fun f => recs.foldl FaultSet.followLine f) }

/-! ### Entry to ISOLATED and service reset (R128, R129) -/

/-- The removals of R128 in one zone: remote waiting entries first, then a remote holder, and the zone moves on. -/
def Works.isolateZone (e : Env) (zone : Nat) (w : Works) : Works :=
  match w.zone zone with
  | none => w
  | some z =>
    let z := { z with waiting := z.waiting.filter (fun x => x.node = e.part.node) }
    match z.holder with
    | some h => if h.node = e.part.node then w.setZone e z else w.moveOn e { z with holder := none } h.cls
    | none => w.setZone e z

/-- Entry to ISOLATED at the arbiter: zone by zone in ascending zone number (R128). -/
def Works.isolateZones (e : Env) (w : Works) : Works :=
  ((w.zones.recs.map (·.zone)).foldl (fun l z => insertAsc z l) []).foldl (fun w z => w.isolateZone e z) w

/-- The holders and waiting entries of other nodes with reason RESET (R129). -/
def resetRevocations (e : Env) (recs : List ZoneRec) : List Revocation :=
  ((recs.map (fun z =>
    (match z.holder with | some h => [h.revoke z.zone .reset] | none => [])
      ++ z.waiting.map (fun x => x.revoke z.zone .reset))).flatten).filter (fun r => r.node ≠ e.part.node)

/-- A record in IDLE (R129). -/
def ZoneRec.toIdle (z : ZoneRec) : ZoneRec :=
  { z with state := .idle, holder := none, waiting := [], settle := none, hold := none }

/-- The arbiter's service reset state (R129). -/
def Works.resetZones (e : Env) (w : Works) : Works :=
  w.zones.recs.foldl (fun w z => w.setZone e z.toIdle) w

end Sys2Proof.Machine
end

