-- ==== Sys2Proof/Machine/Trunks.lean ====
section
/-! DEFINITION. The Trunk and Request Unit (chapter 7): the trunk view, seizing a trunk, the grant record and the zone
rounds, the start of an airing, late answers, revocations, leaves, entry to ISOLATED and service reset. -/

namespace Sys2Proof.Machine

open Sys2Proof

/-! ### Declared hold and homes (R133, R134) -/

/-- The declared hold of an airing (R133). -/
def declaredHold (duration gather : Nat) : Nat := min 250 (duration + 2 * gather + 4)

/-- The home of a zone as this node sees it (R134). -/
def homeFor (e : Env) (w : Works) (zone : Nat) : Home :=
  if w.homes zone then .local
  else
    match e.homeOf zone with
    | some n => .remote n
    | none => .unknown

/-- A remote home. -/
def Home.isRemote : Home → Bool
  | .remote _ => true
  | .local | .unknown => false

/-- An entry is wanted while its verdict is WAITING, GRANTED or QUEUED (R139). -/
def Grant.wanted (g : Grant) : Bool :=
  match g.verdict with
  | .waiting | .granted _ _ | .queued _ => true
  | .denied _ | .dropped | .left => false

/-- An entry is GRANTED. -/
def Grant.isGranted (g : Grant) : Bool :=
  match g.verdict with
  | .granted _ _ => true
  | _ => false

/-- An entry is DROPPED. -/
def Grant.isDropped (g : Grant) : Bool := g.verdict = .dropped

/-- Every required entry is GRANTED (R143). -/
def requiredGranted (gs : List Grant) : Bool := gs.all (fun g => !g.required || g.isGranted)

/-- The entry of a zone in a grant record. -/
def grantOf (gs : List Grant) (zone : Nat) : Option Grant := gs.find? (fun g => g.zone = zone)

/-- The entry of a zone takes a verdict. -/
def setVerdict (zone : Nat) (v : GrantVerdict) (gs : List Grant) : List Grant :=
  gs.map (fun g => if g.zone = zone then { g with verdict := v } else g)

/-- A grant record whose entries are not asked yet: required zones in their order, then optional ones (R139). -/
def freshGrants (e : Env) (w : Works) (r : JobRec) : List Grant :=
  r.required.map (fun z => { zone := z, required := true, home := homeFor e w z, verdict := .left })
    ++ r.optional.map (fun z => { zone := z, required := false, home := homeFor e w z, verdict := .left })

/-- A change of the grant record of a job. -/
def Works.modGrants (tag : Nat) (f : List Grant → List Grant) (w : Works) : Works :=
  w.modGather tag (fun g => { g with grants := f g.grants })

/-- OPTIONAL-MISSED is reported to the Job Table (R70). -/
def Works.missed (tag : Nat) (w : Works) : Works := w.flag tag (fun d => { d with optionalMissed := true })

/-- The phases in which a job's record holds asked entries (R142, R147, R148). -/
def GatherPhase.asks : GatherPhase → Bool
  | .zones | .ready | .airing => true
  | .idle | .trunk | .backoff => false

/-- The in-progress job with a tag whose gathering has asked. -/
def Works.askingJob (w : Works) (tag : Nat) : Option JobRec := (w.liveJob tag).filter (fun r => r.gathering.phase.asks)

/-! ### Giving zones and trunk back (R138, R150) -/

/-- Leaves of some entries (R150): a local leave for the local zones, one ZONE-LEAVE frame for the remote ones. -/
def Works.giveBack (e : Env) (r : JobRec) (gs : List Grant) (w : Works) : Works :=
  let own := (gs.filter (fun g => g.home = .local)).map (·.zone)
  let others := (gs.filter (fun g => g.home.isRemote)).map (·.zone)
  let w := w.leaveZones e e.part.node r.tag own
  if others = [] then w else w.hand e (mkFrame e r.cls 0 (.zoneLeave r.tag others)) .plain

/-- The job's trunk field becomes absent, and the channel no longer drives the trunk (R105, R138). -/
def Works.dropTrunk (r : JobRec) (w : Works) : Works :=
  let w := w.modJob r.tag (fun r => { r with trunk := none })
  match r.channel with
  | some n => w.modChannel n (fun c => { c with transmit := none })
  | none => w

/-- The job gives up its trunk (R138): a FREE frame is handed over. -/
def Works.giveUpTrunk (e : Env) (r : JobRec) (w : Works) : Works :=
  match r.trunk with
  | some t => (w.dropTrunk r).hand e (mkFrame e r.cls 0 (.free t r.tag)) .plain
  | none => w

/-- A seize in flight is abandoned (R136). -/
def Works.abandonSeize (r : JobRec) (w : Works) : Works :=
  match r.gathering.seizing with
  | some t => w.withdrawSeize r.tag t
  | none => w

/-- The unit gives up all a job holds (R150): every wanted entry is left, a seize in flight abandoned, the trunk given
up, and the gathering is IDLE with an empty grant record. -/
def Works.releaseGathering (e : Env) (tag : Nat) (w : Works) : Works :=
  match w.liveJob tag with
  | none => w
  | some r =>
    let w := w.giveBack e r (r.gathering.grants.filter Grant.wanted)
    ((w.abandonSeize r).giveUpTrunk e r).modGather tag (fun _ => Gathering.none)

/-! ### Seizing a trunk (R135, R137) -/

/-- A trunk is a candidate (R135). -/
def Works.candidate (e : Env) (w : Works) (g : Gathering) (t : Nat) : Bool :=
  (w.trunk t).isNone && !carrierOn e w t && !w.jobs.recs.any (fun r => r.state.inProgress && r.trunk = some t)
    && !g.tried.contains t && g.excluded ≠ some t

/-- A trunk round has failed (R137): a wait after the first, trunk rounds exhausted after the second. -/
def Works.trunkRoundFails (e : Env) (r : JobRec) (w : Works) : Works :=
  if r.gathering.trunkRound = 1 then w.modGather r.tag (fun g => { g with trunkWait := some (e.now + sec 2) })
  else w.post (.unit r.tag .trunkExhausted)

/-- The unit chooses a trunk (R135). -/
def Works.chooseTrunk (e : Env) (tag : Nat) (w : Works) : Works :=
  match w.liveJob tag with
  | none => w
  | some r =>
    match [0, 1, 2, 3].find? (w.candidate e r.gathering) with
    | some t =>
      let w := w.modGather tag (fun g => { g with seizing := some t, tried := t :: g.tried })
      w.hand e (mkFrame e r.cls 0 (.seize t tag r.gathering.hold)) .plain
    | none => w.trunkRoundFails e r

/-- The SEIZE of an attempt was refused or removed: the attempt is lost, and the unit chooses again (R135). -/
def Works.seizeUnsent (e : Env) (tag trunk : Nat) (w : Works) : Works :=
  match w.liveJob tag with
  | some r =>
    if r.gathering.seizing = some trunk then (w.modGather tag (fun g => { g with seizing := none })).chooseTrunk e tag else w
  | none => w

/-- The wait between trunk rounds ends: trunk round 2 begins (R137). -/
def Works.trunkWaitEnds (e : Env) (tag : Nat) (w : Works) : Works :=
  match w.liveJob tag with
  | some r =>
    if r.gathering.phase = .trunk ∧ r.gathering.trunkWait.isSome then
      (w.modGather tag (fun g => { g with trunkWait := none, trunkRound := 2, tried := [] })).chooseTrunk e tag
    else w
  | none => w

/-- A view entry has become FREE: the waits between trunk rounds end (R137), in table order (log 38). -/
def Works.viewFreed (e : Env) (w : Works) : Works :=
  (w.jobs.recs.map (·.tag)).foldl (fun w tag => w.trunkWaitEnds e tag) w

/-! ### Verdicts (R142, R145, R146) -/

/-- A zone round fails (R145); `conflict` when the cause is a trunk conflict (R146). -/
def Works.roundFails (e : Env) (tag : Nat) (conflict : Bool) (w : Works) : Works :=
  match w.liveJob tag with
  | none => w
  | some r =>
    let g := r.gathering
    let w := w.giveBack e r (g.grants.filter (fun x => x.wanted && !(x.home = .local && x.verdict = .waiting)))
    let w := if conflict then w.giveUpTrunk e r else w
    let ended : Gathering :=
      { g with
        phase := .backoff,
        grants := g.grants.map (fun x => if x.isDropped then x else { x with verdict := .left }),
        answers := [], gather := none, ready := none, startTimer := none,
        excluded := if conflict then r.trunk else g.excluded,
        reseize := conflict || g.reseize,
        backoff := if g.zoneRound = 1 then some (e.now + ms (500 + 50 * e.part.node)) else none }
    let w := w.modGather tag (fun _ => ended)
    w.post (.unit tag (if g.zoneRound = 1 then .roundFailed else .roundsExhausted))

/-- The job is in its airing. -/
def Works.isAiring (w : Works) (tag : Nat) : Bool := (w.liveJob tag).any (fun r => r.gathering.phase = .airing)

/-- A required zone is lost, to a better class or otherwise: the job gives up all it holds, and the Job Table is told
(R148 to R151). -/
def Works.losesZone (e : Env) (tag : Nat) (u : UnitReport) (w : Works) : Works :=
  (w.releaseGathering e tag).post (.unit tag u)

/-- A trunk conflict (R146): the round fails with the trunk given up.  In an airing no round is left to fail, and the
conflict ends the airing as the loss of a required zone does (R143, R149, log 51). -/
def Works.trunkConflict (e : Env) (tag : Nat) (w : Works) : Works :=
  if w.isAiring tag then w.losesZone e tag .zoneLost else w.roundFails e tag true

/-- A QUEUED verdict: the entry's position is the verdict's (R142).  A required entry that leaves GRANTED by it in the
airing ends the airing, as the loss of a required zone does (R143, R149, log 51). -/
def Works.takeQueued (e : Env) (tag : Nat) (entry : Grant) (position : Nat) (w : Works) : Works :=
  let airing := w.isAiring tag
  let w := w.modGrants tag (setVerdict entry.zone (.queued position))
  if airing && entry.required then w.losesZone e tag .zoneLost else w

/-- A denial: DENIED-TRUNK is a trunk conflict whatever the entry shows (R146); another denial of an entry already GRANTED
is passed over (log 24); else a required entry fails the round, and an optional one is dropped (R142). -/
def Works.takeDenial (e : Env) (tag : Nat) (entry : Grant) (reason : Denial) (w : Works) : Works :=
  let denied := w.modGrants tag (setVerdict entry.zone (.denied (some reason)))
  if reason = .trunk then denied.trunkConflict e tag
  else if entry.isGranted then w
  else if entry.required then denied.roundFails e tag false
  else (w.modGrants tag (setVerdict entry.zone .dropped)).missed tag

/-- A verdict is taken for a wanted entry (R142). -/
def Works.takeVerdict (e : Env) (tag : Nat) (entry : Grant) (v : Verdict) (w : Works) : Works :=
  match v with
  | .granted ready mark =>
    let w := w.modGrants tag (setVerdict entry.zone (.granted (e.now + ms ready) mark))
    if mark then w.flag tag (fun d => { d with zoneFaulted := true }) else w
  | .queued position => w.takeQueued e tag entry position
  | .denied reason => w.takeDenial e tag entry reason

/-- The latest ready instant among the entries GRANTED (R143). -/
def latestReady (now : Instant) (gs : List Grant) : Instant :=
  gs.foldl (fun t g => match g.verdict with | .granted r _ => max t r | _ => t) now

/-- The test made after each verdict in phase ZONES: when every required entry is GRANTED the gathering is
READY (R143).  In READY it tests nothing: a required entry GRANTED again there makes no new start attempt (log 57). -/
def Works.testRound (e : Env) (tag : Nat) (w : Works) : Works :=
  match w.liveJob tag with
  | none => w
  | some r =>
    if r.gathering.phase = .zones ∧ requiredGranted r.gathering.grants then
      let ready := latestReady e.now r.gathering.grants
      let w := w.modGather tag (fun g => { g with phase := .ready, gather := none, ready := some ready })
      let w := w.post (.unit tag .allGranted)
      if ready ≤ e.now then w.post (.readyDue tag) else w
    else w

/-- A late GRANTED or QUEUED verdict is answered with a leave of the zone; a late denial is passed over (R147).  `remote`
is the class of the ZONE-ANSWER's header, or none for a verdict of this node's own arbiter. -/
def Works.lateAnswer (e : Env) (tag zone : Nat) (v : Verdict) (remote : Option Cls) (w : Works) : Works :=
  match v, remote with
  | .denied _, _ => w
  | _, none => w.leaveZones e e.part.node tag [zone]
  | _, some cls => w.hand e (mkFrame e cls 0 (.zoneLeave tag [zone])) .plain

/-- A verdict reaches the unit: it is taken for a wanted entry, else it is a late answer (R142, R147). -/
def Works.verdictReaches (e : Env) (tag zone : Nat) (v : Verdict) (remote : Option Cls) (w : Works) : Works :=
  match (w.askingJob tag).bind (fun r => (grantOf r.gathering.grants zone).filter Grant.wanted) with
  | some entry => (w.takeVerdict e tag entry v).testRound e tag
  | none => w.lateAnswer e tag zone v remote

/-- The sender of an answer is the home of a WAITING entry it names (R141); a late answer stops no timer (R147). -/
def answersHome (gs : List Grant) (sender : Nat) (verdicts : List (Nat × Verdict)) : Bool :=
  verdicts.any (fun v => match grantOf gs v.1 with | some g => g.home = .remote sender && g.verdict = .waiting | none => false)

/-- A ZONE-ANSWER frame (R141). -/
def Works.answerFrame (e : Env) (f : Frame) (tag : Nat) (verdicts : List (Nat × Verdict)) (w : Works) : Works :=
  let stops := match w.liveJob tag with | some r => answersHome r.gathering.grants f.source verdicts | none => false
  let w := verdicts.foldl (fun w v => w.verdictReaches e tag v.1 v.2 (some f.cls)) w
  if stops then w.modGather tag (fun g => { g with answers := g.answers.filter (fun a => a.1 ≠ f.source) }) else w

/-! ### The zone round (R139 to R141) -/

/-- The entries of a new round (R139, R140): homes looked up again, DROPPED entries kept, the others WAITING.  A remote
entry of a job without a trunk has no home to ask (R134). -/
def roundGrants (e : Env) (w : Works) (hasTrunk : Bool) (gs : List Grant) : List Grant :=
  gs.map (fun g =>
    let home := homeFor e w g.zone
    let home := if home.isRemote ∧ hasTrunk = false then .unknown else home
    { g with home := home, verdict := if g.isDropped then .dropped else .waiting })

/-- Step 1 of R140: entries with no home. -/
def homelessDenied (gs : List Grant) : List Grant :=
  gs.map (fun g =>
    if g.home = .unknown ∧ g.isDropped = false then { g with verdict := if g.required then .denied none else .dropped } else g)

/-- A required entry is DENIED. -/
def anyRequiredDenied (gs : List Grant) : Bool :=
  gs.any (fun g => g.required && (match g.verdict with | .denied _ => true | _ => false))

/-- An optional entry has come to be DROPPED. -/
def anyDropped (before after : List Grant) : Bool :=
  decide ((before.filter Grant.isDropped).length < (after.filter Grant.isDropped).length)

/-- Step 2 of R140: the local ask, its revocations, and its verdicts taken by R142, with the test of R143 after each. -/
def Works.askOwn (e : Env) (r : JobRec) (w : Works) : Works :=
  let own := (r.gathering.grants.filter (fun g => g.home = .local && g.wanted)).map (·.zone)
  if own = [] then w
  else
    let a : Ask :=
      { node := e.part.node, tag := r.tag, cls := r.cls, source := .channel (r.channel.getD 0), duration := r.gathering.hold }
    let x := Works.askZones e a own w
    let w := x.1.revoke e x.2.2
    x.2.1.foldl (fun w v =>
      match (w.askingJob r.tag).bind (fun r => (grantOf r.gathering.grants v.1).filter Grant.wanted) with
      | some entry =>
        match v.2, entry.required with
        | .denied reason, true => w.modGrants r.tag (setVerdict v.1 (.denied (some reason)))
        | v, _ => (w.takeVerdict e r.tag entry v).testRound e r.tag
      | none => w) w

/-- Step 3 of R140: one ZONE-ASK for the remote entries, with a new alternation bit (R169); the round keeps its serial. -/
def Works.askOthers (e : Env) (r : JobRec) (w : Works) : Works :=
  let others := (r.gathering.grants.filter (fun g => g.home.isRemote && g.wanted)).map (·.zone)
  match others, r.trunk with
  | [], _ => w
  | _, none => w
  | _, some t =>
    let alt := !w.line.askAlt
    let serial := w.line.asks + 1
    let w : Works := { w with line := { w.line with askAlt := alt, asks := serial } }
    (w.modGather r.tag (fun g => { g with ask := some serial })).hand e
      { mkFrame e r.cls 0 (.zoneAsk r.tag t r.gathering.hold others) with alt := alt } (.ask serial)

/-- A zone round begins (R140), and the test of R143 follows.  A round whose required entries are GRANTED within the local
ask still asks its remote zones, and starts no gather timer (R144, log 13). -/
def Works.startRound (e : Env) (tag : Nat) (w : Works) : Works :=
  match w.liveJob tag with
  | none => w
  | some r =>
    let built := roundGrants e w r.trunk.isSome r.gathering.grants
    let gs := homelessDenied built
    let w := w.modGather tag (fun g => { g with phase := .zones, grants := gs, ask := none })
    let w := if anyDropped built gs then w.missed tag else w
    if anyRequiredDenied gs then w.roundFails e tag false
    else
      let w := match w.liveJob tag with | some r => w.askOwn e r | none => w
      match w.liveJob tag with
      | none => w
      | some r =>
        if anyRequiredDenied r.gathering.grants then w.roundFails e tag false
        else
          let w := w.askOthers e r
          if r.gathering.phase = .zones then
            (w.modGather tag (fun g => { g with gather := some (e.now + sec e.part.cfg.settings.gather) })).testRound e tag
          else w

/-- The answer timers of a round start, at the echo of the round's own ZONE-ASK or at its refusal (R141). -/
def Works.startAnswers (e : Env) (tag serial : Nat) (w : Works) : Works :=
  match w.liveJob tag with
  | none => w
  | some r =>
    if (r.gathering.phase = .zones ∨ r.gathering.phase = .ready) ∧ r.gathering.ask = some serial then
      let homes := (r.gathering.grants.filter (fun g => !g.isDropped)).filterMap (fun g =>
        match g.home with | .remote n => some n | _ => none)
      w.modGather tag (fun g => { g with answers := (firstPlaces homes).map (fun n => (n, e.now + sec 1)) })
    else w

/-- The entries of a home still WAITING are DENIED with NO-ANSWER, one by one (R141, R142), until one fails the round and the
rest are given up with it (R145, log 55). -/
def Works.noAnswer (e : Env) (tag : Nat) : List Nat → Works → Works
  | [], w => w
  | zone :: rest, w =>
    match (w.askingJob tag).bind (fun r => (grantOf r.gathering.grants zone).filter (fun g => g.verdict = .waiting)) with
    | none => Works.noAnswer e tag rest w
    | some g =>
      let w :=
        if g.required then (w.modGrants tag (setVerdict zone (.denied none))).roundFails e tag false
        else ((w.modGrants tag (setVerdict zone .dropped)).missed tag).testRound e tag
      Works.noAnswer e tag rest w

/-- The answer timer of a home runs out (R141). -/
def Works.answerExpires (e : Env) (tag home : Nat) (w : Works) : Works :=
  match w.liveJob tag with
  | none => w
  | some r =>
    if r.gathering.answers.any (fun a => a.1 = home) then
      let w := w.modGather tag (fun g => { g with answers := g.answers.filter (fun a => a.1 ≠ home) })
      w.noAnswer e tag ((r.gathering.grants.filter (fun g => g.home = .remote home)).map (·.zone))
    else w

/-! ### Timers of the gathering (R143 to R146) -/

/-- The gather timer runs out (R144). -/
def Works.gatherExpires (e : Env) (tag : Nat) (w : Works) : Works :=
  match w.liveJob tag with
  | some r => if r.gathering.phase = .zones ∧ r.gathering.gather.isSome then w.roundFails e tag false else w
  | none => w

/-- The ready timer runs out: the carrier test, then the ready delay has passed and the start timer runs (R143, R144). -/
def Works.readyExpires (e : Env) (tag : Nat) (w : Works) : Works :=
  match w.liveJob tag with
  | none => w
  | some r =>
    if r.gathering.phase = .ready ∧ r.gathering.ready.isSome then
      if (match r.trunk with | some t => carrierOn e w t | none => false) then w.roundFails e tag true
      else
        (w.modGather tag (fun g =>
            { g with ready := none, startTimer := some (e.now + sec e.part.cfg.settings.gather) })).post
          (.unit tag .readyPassed)
    else w

/-- The start timer runs out (R144). -/
def Works.startExpires (e : Env) (tag : Nat) (w : Works) : Works :=
  match w.liveJob tag with
  | some r => if r.gathering.phase = .ready ∧ r.gathering.startTimer.isSome then w.roundFails e tag false else w
  | none => w

/-- The backoff timer runs out: zone round 2, after a new seizure when the failure was a trunk conflict (R145, R146). -/
def Works.backoffExpires (e : Env) (tag : Nat) (w : Works) : Works :=
  match w.liveJob tag with
  | none => w
  | some r =>
    if r.gathering.phase = .backoff ∧ r.gathering.backoff.isSome then
      if r.gathering.reseize then
        (w.modGather tag (fun g =>
            { g with backoff := none, zoneRound := 2, phase := .trunk, trunkRound := 1, tried := [], reseize := false })).chooseTrunk
          e tag
      else (w.modGather tag (fun g => { g with backoff := none, zoneRound := 2 })).startRound e tag
    else w

/-- The ready delay has passed, the airing has not started and every required entry is GRANTED (R143, R144; log 57 for an
entry GRANTED again in READY). -/
def Gathering.mayStart (g : Gathering) : Bool :=
  g.phase = .ready && g.ready.isNone && g.startTimer.isSome && requiredGranted g.grants

/-- An optional entry given up at the start of the airing (R143). -/
def Grant.givenUpAtStart (g : Grant) : Bool := g.wanted && !g.isGranted && !g.required

/-- The channel has reported the start of the airing (R143). -/
def Works.airingStarted (e : Env) (tag : Nat) (w : Works) : Works :=
  match w.liveJob tag with
  | none => w
  | some r =>
    let g := r.gathering
    let gone := g.grants.filter Grant.givenUpAtStart
    let w := w.modGather tag (fun g =>
      { g with phase := .airing, startTimer := none, answers := [],
               grants := g.grants.map (fun x => if x.givenUpAtStart then { x with verdict := .dropped } else x) })
    let w := w.modJob tag (fun r => { r with zonesAired := (g.grants.filter Grant.isGranted).length })
    if gone = [] then w else (w.missed tag).giveBack e r gone

/-! ### Beginning a gathering (R133, R134) -/

/-- Optional entries that are not local are dropped (R134, R151). -/
def dropDistant (gs : List Grant) : List Grant :=
  gs.map (fun g => if g.home ≠ .local ∧ g.required = false then { g with verdict := .dropped } else g)

/-- A required entry is remote or has no home. -/
def requiredDistant (gs : List Grant) : Bool := gs.any (fun g => g.required && !decide (g.home = .local))

/-- The Job Table begins the gathering of an airing (R133, R134). -/
def Works.beginGathering (e : Env) (tag : Nat) (w : Works) : Works :=
  match w.liveJob tag with
  | none => w
  | some r =>
    let gs := freshGrants e w r
    let base : Gathering :=
      { Gathering.none with hold := declaredHold r.duration e.part.cfg.settings.gather, grants := gs }
    if e.part.state = .isolated ∨ e.part.state = .listen then
      let kept := dropDistant gs
      let w := w.modGather tag (fun _ => { base with grants := kept })
      let w := if anyDropped gs kept then w.missed tag else w
      if requiredDistant gs then w.post (.unit tag .zoneLost) else w.startRound e tag
    else if gs.any (fun g => g.home.isRemote) then
      (w.modGather tag (fun _ => { base with phase := .trunk })).chooseTrunk e tag
    else (w.modGather tag (fun _ => base)).startRound e tag

/-! ### SEIZE and FREE (R131, R132, R136) -/

/-- A view entry is set. -/
def Works.setTrunk (t : Nat) (h : Option TrunkHold) (w : Works) : Works := { w with trunks := w.trunks.set t h }

/-- A SEIZE is applied to the view (R131). -/
def Works.applySeize (e : Env) (source trunk tag hold : Nat) (w : Works) : Works :=
  match w.trunk trunk with
  | none => w.setTrunk trunk (some { node := source, tag := tag, expiry := e.now + sec (hold + 5) })
  | some _ => w

/-- A FREE is applied to the view (R131). -/
def Works.applyFree (e : Env) (source trunk : Nat) (w : Works) : Works :=
  match w.trunk trunk with
  | some h => if h.node = source then (w.setTrunk trunk none).viewFreed e else w
  | none => w

/-- The expiry timer of a HELD entry runs out (R132). -/
def Works.viewExpires (e : Env) (trunk : Nat) (w : Works) : Works :=
  match w.trunk trunk with
  | some _ => (w.setTrunk trunk none).viewFreed e
  | none => w

/-- The echo of this node's own SEIZE (R136); a win taken after the job has gone is freed with the class of the SEIZE
(log 44). -/
def Works.seizeEchoed (e : Env) (f : Frame) (trunk tag hold : Nat) (w : Works) : Works :=
  let won := (w.trunk trunk).isNone
  let w := w.applySeize e f.source trunk tag hold
  let freeAgain (w : Works) : Works := w.hand e (mkFrame e f.cls 0 (.free trunk tag)) .plain
  match (w.liveJob tag).filter (fun r => r.gathering.seizing = some trunk) with
  | none => if won then freeAgain w else w
  | some _ =>
    let w := w.modGather tag (fun g => { g with seizing := none })
    if won then
      if carrierOn e w trunk then (freeAgain w).chooseTrunk e tag
      else (w.modJob tag (fun r => { r with trunk := some trunk })).startRound e tag
    else w.chooseTrunk e tag

/-! ### Revocations (R148, R149) -/

/-- A revocation of one zone reaches the unit. -/
def Works.takeRevocation (e : Env) (tag zone : Nat) (reason : Reason) (w : Works) : Works :=
  match (w.askingJob tag).bind (fun r => (grantOf r.gathering.grants zone).filter Grant.wanted) with
  | none => w
  | some g =>
    if g.required then
      w.losesZone e tag (if reason = .preempted then .preempted else .zoneLost)
    else (w.modGrants tag (setVerdict zone .dropped)).missed tag

/-! ### Entry to ISOLATED and service reset (R151, R152) -/

/-- Entries that are not local are gone: DROPPED, none of them to be left (R151). -/
def cutDistant (gs : List Grant) : List Grant :=
  gs.map (fun g => if g.home = .local then g else { g with verdict := .dropped })

/-- What entry to ISOLATED does to one job in phase ZONES, READY or AIRING (R151). -/
def Works.isolateAsking (e : Env) (r : JobRec) (w : Works) : Works :=
  let lost := r.gathering.grants.filter (fun g => g.home ≠ .local && g.wanted)
  let w := w.modGather r.tag (fun g => { g with grants := cutDistant g.grants, answers := [] })
  let w := if lost.any (fun g => !g.required) then w.missed r.tag else w
  if lost.any (·.required) then w.losesZone e r.tag .zoneLost else w

/-- What entry to ISOLATED does to one job in phase TRUNK or BACKOFF (R151).  The zone round a job goes on to from TRUNK
begins, with its local ask, after the arbiter's removals of R128 (log 43). -/
def Works.isolateWaiting (e : Env) (r : JobRec) (w : Works) : Works :=
  let gs := r.gathering.grants.map (fun g => { g with home := homeFor e w g.zone })
  let kept := dropDistant gs
  let w := w.modGather r.tag (fun g => { g with grants := kept, seizing := none, trunkWait := none, reseize := false })
  let w := if anyDropped gs kept then w.missed r.tag else w
  if requiredDistant gs then w.post (.unit r.tag .zoneLost)
  else if r.gathering.phase = .trunk then w.post (.beginRound r.tag)
  else w

/-- What entry to ISOLATED does to one job (R151). -/
def Works.isolateJob (e : Env) (tag : Nat) (w : Works) : Works :=
  match w.liveJob tag with
  | none => w
  | some r =>
    let w := if r.trunk.isSome then w.dropTrunk r else w
    match r.gathering.phase with
    | .zones | .ready | .airing => w.isolateAsking e r
    | .trunk | .backoff => w.isolateWaiting e r
    | .idle => w

/-- Entry to ISOLATED at the unit (R151): every view entry FREE, then job by job in table order (log 38). -/
def Works.isolateTrunks (e : Env) (w : Works) : Works :=
  let w : Works := { w with trunks := [none, none, none, none] }
  (w.jobs.recs.map (·.tag)).foldl (fun w tag => w.isolateJob e tag) w

/-- The ZONE-LEAVE frames of a service reset: one for each in-progress job with remote zones wanted (R152), in table order
(log 38). -/
def resetLeaves (e : Env) (w : Works) : List Frame :=
  w.jobs.recs.filterMap (fun r =>
    let zones := (r.gathering.grants.filter (fun g => g.home.isRemote && g.wanted)).map (·.zone)
    if r.state.inProgress = false ∨ zones = [] then none else some (mkFrame e r.cls 0 (.zoneLeave r.tag zones)))

/-- The FREE frames of a service reset: one for each trunk held (R152), in table order (log 38). -/
def resetFrees (e : Env) (w : Works) : List Frame :=
  w.jobs.recs.filterMap (fun r =>
    match r.trunk with
    | some t => if r.state.inProgress then some (mkFrame e r.cls 0 (.free t r.tag)) else none
    | none => none)

/-- This node's own entries of the view become FREE (R152). -/
def Works.freeOwnTrunks (e : Env) (w : Works) : Works :=
  { w with trunks := w.trunks.map (fun h => h.filter (fun x => x.node ≠ e.part.node)) }

end Sys2Proof.Machine
end

