-- ==== Sys2Proof/Machine/Jobs.lean ====
section
/-! DEFINITION. The Job Table (chapter 3): tags, acceptance and refusal, dispatch, binding, airings and repeats,
preemption, notices and staleness, QUIET, the end of a job and its report, triggers, console requests and REPLAY-LAST. -/

namespace Sys2Proof.Machine

open Sys2Proof

/-! ### Reports and the end of a job (R54, R70, R71) -/

/-- A phrase entry of a list. -/
def ListEntry.isPhrase : ListEntry → Bool
  | .phrase _ => true
  | .gap _ _ => false

/-- Phrases remaining at failure (R70, log 15): of the list of an airing gathered, waited for, aired or in its gap. -/
def phrasesRemaining (w : Works) (r : JobRec) (code : Code) : Nat :=
  if code = .completed then 0
  else
    match r.state, r.expanded with
    | .gathering, some l | .readyWait, some l => l.countP ListEntry.isPhrase
    | .airing, some l | .gap, some l =>
      l.countP ListEntry.isPhrase - (match r.channel with | some n => (w.channel n).played | none => 0)
    | _, _ => 0

/-- The report of a job (R71, R184). -/
def jobReport (r : JobRec) (code : Code) : ReportBody :=
  { tag := r.tag, origin := r.origin.kind, ref := r.origin.ref r.callRef, content := r.content.report, code := code,
    flags := r.flags, airings := r.airings, zonesAired := r.zonesAired, remaining := r.remaining }

/-- The last-aired record a job is copied into: that of the face in its last snapshot, of its PRESENCE face, or the
general one (R71). -/
def lastAiredPlace (e : Env) (r : JobRec) : Nat :=
  let presence := match r.origin with | .presence f => some f | _ => none
  let ofFace (f : Option Nat) : Option Nat := f.bind e.facePosition
  match ofFace r.lastFace with
  | some i => i
  | none => (ofFace presence).getD 4

/-- A REPLAY job. -/
def JobRec.isReplay (r : JobRec) : Bool := match r.origin with | .replay _ => true | _ => false

/-- A TRIGGER job. -/
def JobRec.isTrigger (r : JobRec) : Bool := match r.origin with | .trigger _ => true | _ => false

/-- The last-aired records with a job that has aired, REPLAY jobs apart (R71). -/
def Works.keepLastAired (e : Env) (r : JobRec) (w : Works) : Works :=
  match r.lastBound with
  | some b =>
    if 1 ≤ r.airings ∧ r.isReplay = false then
      let kept : LastAired :=
        { cls := r.cls, content := r.content, required := r.required, optional := r.optional, list := b.list, duration := b.duration }
      { w with jobs := { w.jobs with lastAired := w.jobs.lastAired.set (lastAiredPlace e r) (some kept) } }
    else w
  | none => w

/-- A record is freed; a TRIGGER record is unlinked from its input (R71). -/
def Works.freeRecord (tag : Nat) (w : Works) : Works :=
  { w with jobs := { w.jobs with recs := w.jobs.recs.filter (fun r => r.tag ≠ tag),
                                 triggerJobs := w.jobs.triggerJobs.map (fun t => t.filter (· ≠ tag)) } }

/-- A job ends (R70, R71): with the code it was ending with already, or with this one.  The record takes the code and the
phrases remaining, the unit leaves, the channel lets go, the report is handed over and the record is freed. -/
def Works.endJob (e : Env) (tag : Nat) (code : Code) (w : Works) : Works :=
  match w.job tag with
  | none => w
  | some r =>
    let code := r.ending.getD code
    let left := phrasesRemaining w r code
    let ended (r : JobRec) : JobRec := { r with ending := some code, remaining := left }
    let w := (w.modJob tag ended).releaseGathering e tag
    let w := match r.channel with | some n => (w.letGo n).dropReads n | none => w
    let w := ((w.keepLastAired e r).takeReport e (jobReport (ended r) code)).freeRecord tag
    if r.channel.isSome then w.post .dispatch else w

/-! ### Acceptance and refusal (R48, R49, R53, R54) -/

/-- The first tag from `t` on that no record holds, looking at `n` values (R48). -/
def freeTag (recs : List JobRec) : Nat → Nat → Nat
  | 0, t => t
  | n + 1, t => if recs.any (fun r => r.tag = t) then freeTag recs n ((t + 1) % 256) else t

/-- The tag the next request is issued (R48). -/
def JobTable.nextTag (j : JobTable) : Nat := freeTag j.recs 256 ((j.lastTag + 1) % 256)

/-- A request is issued its tag (R48). -/
def Works.issueTag (w : Works) : Works := { w with jobs := { w.jobs with lastTag := w.jobs.nextTag } }

/-- A request that makes no record is reported (R54). -/
def Works.refuse (e : Env) (tag : Nat) (o : Origin) (callRef : Option CallRef) (content : ReportContent) (code : Code)
    (w : Works) : Works :=
  w.takeReport e
    { tag := tag, origin := o.kind, ref := o.ref callRef, content := content, code := code, flags := {}, airings := 0,
      zonesAired := 0, remaining := 0 }

/-- Two origins of a kind that supersedes: both LADDER or both DELAY (R53). -/
def Origin.supersedes : Origin → Origin → Bool
  | .ladder _ _, .ladder _ _ => true
  | .delay _ _, .delay _ _ => true
  | _, _ => false

/-- Two call references name one slot and call id. -/
def sameCall (a b : Option CallRef) : Bool :=
  match a, b with
  | some x, some y => x.slot = y.slot && x.id = y.id
  | _, _ => false

/-- The QUEUED records a request supersedes end (R53, step 2), in table order (log 38). -/
def Works.supersede (e : Env) (q : JobRequest) (w : Works) : Works :=
  (w.jobs.recs.filter (fun r => r.state = .queued && q.origin.supersedes r.origin && sameCall q.callRef r.callRef)).foldl
    (fun w r => w.endJob e r.tag .superseded) w

/-- Of two records, the first is the worse: worse class, or the newer of one class (R53). -/
def JobRec.worse (a b : JobRec) : Bool := b.cls.better a.cls || (a.cls = b.cls && decide (b.creation < a.creation))

/-- The worst QUEUED record (R53, step 3). -/
def Works.worstQueued (w : Works) : Option JobRec := bestBy JobRec.worse (w.jobs.recs.filter (fun r => r.state = .queued))

/-- The record a request becomes (R47, R53 step 4); the airing duration of one that is no REPLAY is 0 (log 53). -/
def recordOf (q : JobRequest) (tag creation : Nat) : JobRec :=
  { tag := tag, creation := creation, origin := q.origin, callRef := q.callRef, content := q.content, cls := q.cls,
    required := if q.required = [] then q.optional else q.required, optional := if q.required = [] then [] else q.optional,
    repsLeft := q.reps, gap := q.gap, notBefore := q.notBefore, state := .queued, channel := none, trunk := none,
    snapshot := none, expanded := q.replay.map (·.1), duration := (q.replay.map (·.2)).getD 0, airings := 0, retries := 1,
    staleMark := false, lastMark := false, fellMark := false, retryTimer := none, gapTimer := none, flags := {},
    ending := none, binding := none, lastBound := none, lastFace := none, zonesAired := 0, remaining := 0, gathering := Gathering.none }

/-- The record of a request is created, QUEUED; a TRIGGER request's becomes the input's trigger job (R53, step 4). -/
def Works.createJob (q : JobRequest) (tag : Nat) (w : Works) : Works :=
  let creation := w.jobs.creation + 1
  let jobs : JobTable :=
    { w.jobs with
      creation := creation, recs := w.jobs.recs ++ [recordOf q tag creation],
      triggerJobs := match q.origin with | .trigger i => w.jobs.triggerJobs.set i (some tag) | _ => w.jobs.triggerJobs }
  { w with jobs := jobs }

/-- Space for a request in a full table (R53, step 3): the worst QUEUED record ends DISPLACED for a better class; false
when the request is to be refused. -/
def Works.makeSpace (e : Env) (q : JobRequest) (w : Works) : Works × Bool :=
  if w.jobs.recs.length < jobCapacity then (w, true)
  else
    match w.worstQueued with
    | some r => if q.cls.better r.cls then (w.endJob e r.tag .displaced, true) else (w, false)
    | none => (w, false)

/-- A request that has passed its checks goes through acceptance (R53). -/
def Works.accept (e : Env) (q : JobRequest) (w : Works) : Works :=
  let tag := w.jobs.nextTag
  let w := w.issueTag
  if e.part.state = .quiet ∧ q.cls.isLow then w.refuse e tag q.origin q.callRef q.content.report .suppressed
  else
    let s := (w.supersede e q).makeSpace e q
    if s.2 then s.1.createJob q tag else s.1.refuse e tag q.origin q.callRef q.content.report .queueFull

/-! ### Binding (R58 to R63, R79) -/

/-- The snapshot of a call (R58). -/
def CallRec.snapshot (c : CallRec) : Snapshot :=
  { face := c.face, oldFace := c.oldFace, kind := c.kind, sArr := c.sArr, sDep := c.sDep, delay := c.delay, dest := c.dest,
    origin := c.origin, operator := c.operator, formation := c.formation, points := c.points, clamped := c.clamped }

/-- Origins whose jobs need a live call (R58, R67). -/
def Origin.needsLive : Origin → Bool
  | .ladder _ _ | .delay _ _ | .presence _ => true
  | _ => false

/-- What expansion reads for a job. -/
def contextOf (e : Env) (r : JobRec) : Context :=
  { snapshot := r.snapshot, origin := r.origin,
    faceLength := (r.snapshot.bind (fun s => e.face s.face)).map (·.cfg.length) }

/-- The end of binding (R63).  The cut to 180 s, and so its TRUNCATED, is made only on the way to GATHERING (R62, log 56). -/
def Works.endBinding (e : Env) (tag : Nat) (w : Works) : Works :=
  match w.job tag with
  | none => w
  | some r =>
    match r.binding with
    | none => w
    | some b =>
      if r.staleMark then w.endJob e tag .stale
      else if b.failed then w.endJob e tag .bindFail
      else
        let list := cutDuration b.bound.length b.bound
        let duration := airingDuration list
        let w := w.modJob tag (fun r =>
          { r with binding := none, expanded := some list, duration := duration, state := .gathering,
                   flags := { r.flags with truncated := r.flags.truncated || decide (list.length < b.bound.length) },
                   lastBound := some { list := list, duration := duration } })
        let w := match r.channel with | some n => w.fillFrom e n list | none => w
        w.beginGathering e tag

/-- Binding goes on with its lookups: those the cache answers at once, then a read, or the end (R79). -/
def Works.continueBinding (e : Env) (tag : Nat) (w : Works) : Works :=
  match w.job tag with
  | none => w
  | some r =>
    match r.binding with
    | none => w
    | some b =>
      let l := lookUps w.flash.cache b.todo
      let w := w.modJob tag (fun r => { r with binding := some { b with bound := b.bound ++ l.1, todo := l.2 } })
      match neededBlock l.2, r.channel with
      | some block, some n => w.askRead n (.directory block)
      | _, _ => w.endBinding e tag

/-- The items of a job are expanded (R59 to R61); no item at all, or an essential one absent, is a failure (R60). -/
def Works.expandJob (e : Env) (tag : Nat) (items : List Item) (w : Works) : Works :=
  match w.job tag with
  | none => w
  | some r =>
    let c := contextOf e r
    let x := expandItems c items
    let clamped := (match r.snapshot with | some s => s.clamped | none => false) && speaksTime c items
    let w := w.modJob tag (fun r =>
      { r with
        flags := { r.flags with truncated := r.flags.truncated || x.2, clampedTime := r.flags.clampedTime || clamped },
        binding := some { awaitingTemplate := false, bound := [], todo := x.1,
                          failed := items.isEmpty || essentialAbsent c items } })
    w.continueBinding e tag

/-- The call of a job is gone, or no longer live where it must be (R58). -/
def staleAtBinding (e : Env) (r : JobRec) : Bool :=
  match r.callRef with
  | none => false
  | some ref =>
    match e.callFor ref with
    | none => true
    | some c => r.origin.needsLive && !c.state.live

/-- The snapshot is taken; its face is the last one until another is taken (R58, R71, log 20). -/
def JobRec.takeSnapshot (s : Option Snapshot) (r : JobRec) : JobRec :=
  { r with snapshot := s, lastFace := (s.map (·.face)).or r.lastFace }

/-- A record enters BINDING on its channel (R58): STALE at once, or the snapshot is taken and the reads begin. -/
def Works.enterBinding (e : Env) (tag : Nat) (w : Works) : Works :=
  match w.job tag with
  | none => w
  | some r =>
    let w := w.modJob tag (fun r =>
      { r with state := .binding, binding := some { awaitingTemplate := true, bound := [], todo := [], failed := false } })
    let w := match r.channel with | some n => w.reserve n | none => w
    if staleAtBinding e r then w.endJob e tag .stale
    else
      let w := w.modJob tag (JobRec.takeSnapshot ((r.callRef.bind e.callFor).map CallRec.snapshot))
      match r.content, r.channel with
      | .template t, some n => w.askRead n (.template t)
      | .template _, none => w
      | .phrases l, _ => w.expandJob e tag (phraseItems l)

/-- A binding read could not be made for a port fault: binding ends (R60, R79). -/
def Works.bindingPortFault (e : Env) (tag : Nat) (w : Works) : Works :=
  (w.modJob tag (fun r => { r with binding := r.binding.map (fun b => { b with failed := true }) })).endBinding e tag

/-- The job whose binding waits for the read on the port. -/
def Works.bindingOn (w : Works) (channel : Nat) (live : Bool) : Option JobRec :=
  if live then (w.jobOn channel).filter (fun r => r.binding.isSome) else none

/-- The completion of a template read on the port; none for a no-response read (R75, R79, R87). -/
def Works.templateRead (e : Env) (data : Option (List Byte)) (w : Works) : Works :=
  match w.flash.port with
  | some (.bind channel (.template _) live) =>
    let w := (w.freePort).faultEvent e (fun f => { f with flashPort := data.isNone })
    let w :=
      match w.bindingOn channel live, data with
      | some r, some bytes => w.expandJob e r.tag (templateItems bytes)
      | some r, none => w.bindingPortFault e r.tag
      | none, _ => w
    w.post .flashLook
  | _ => w

/-- The completion of a directory read on the port; none for a no-response read (R78, R79, R87). -/
def Works.directoryRead (e : Env) (data : Option (List Byte)) (w : Works) : Works :=
  match w.flash.port with
  | some (.bind channel (.directory block) live) =>
    let w := (w.freePort).faultEvent e (fun f => { f with flashPort := data.isNone })
    let cache := data.map (fun bytes => (block, bytes))
    let w : Works := { w with flash := { w.flash with cache := cache } }
    let w :=
      match w.bindingOn channel live, data with
      | some r, some _ => w.continueBinding e r.tag
      | some r, none => w.bindingPortFault e r.tag
      | none, _ => w
    w.post .flashLook
  | _ => w

/-! ### Dispatch (R56, R57) -/

/-- A not-before has passed (R57). -/
def notBeforePassed (e : Env) (r : JobRec) : Bool :=
  match r.notBefore with
  | none => true
  | some nb =>
    match nb.day with
    | none => false
    | some day => e.clock.known && decide (relTime e.clock nb.second day ≤ 0)

/-- A record is eligible (R56). -/
def eligible (e : Env) (r : JobRec) : Bool := r.state = .queued && notBeforePassed e r

/-- Of two records, the first is the better: better class, or the older of one class (R56). -/
def JobRec.better (a b : JobRec) : Bool := a.cls.better b.cls || (a.cls = b.cls && decide (a.creation < b.creation))

/-- A channel is free: no record holds it and it is FREE (R56). -/
def Works.channelFree (w : Works) (n : Nat) : Bool := (w.channel n).state = .free && (w.jobOn n).isNone

/-- One dispatch, when one can be made (R56). -/
def Works.dispatchOne (e : Env) (w : Works) : Works :=
  if e.part.state = .active ∨ e.part.state = .quiet then
    match [0, 1].find? w.channelFree, bestBy JobRec.better (w.jobs.recs.filter (eligible e)) with
    | some n, some r =>
      let w := w.modJob r.tag (fun r => { r with channel := some n })
      if r.isReplay then
        let w := w.modJob r.tag (fun r => { r with state := .gathering })
        (w.fillFrom e n (r.expanded.getD [])).beginGathering e r.tag
      else w.enterBinding e r.tag
    | _, _ => w
  else w

/-- The Job Table looks for a dispatch; with two channels it makes two at most (R56). -/
def Works.dispatch (e : Env) (w : Works) : Works := (w.dispatchOne e).dispatchOne e

/-- A request reaches the Job Table from inside the node: acceptance, and the look for a dispatch (R49, R53, R56). -/
def Works.takeRequest (e : Env) (q : JobRequest) (w : Works) : Works := (w.accept e q).dispatch e

/-! ### Reports of the unit and of the channels (R64 to R66) -/

/-- The start order, when the record waits in READY-WAIT, its ready delay has passed and its channel's start condition
holds (R94); the start is reported to the unit (R143).  A required entry GRANTED again in READY makes no attempt of its own
(log 57). -/
def Works.tryStart (e : Env) (tag : Nat) (w : Works) : Works :=
  match w.job tag with
  | none => w
  | some r =>
    match r.channel with
    | none => w
    | some n =>
      if r.state = .readyWait ∧ r.gathering.mayStart ∧ w.startCondition e n then
        ((w.startPlaying n r.trunk).airingStarted e tag).modJob tag (fun r => { r with state := .airing })
      else w

/-- A preemption (R66): the channel aborts, and the job retries once or ends; a job already ending ends with its code. -/
def Works.preempt (e : Env) (tag : Nat) (w : Works) : Works :=
  match w.liveJob tag with
  | none => w
  | some r =>
    if r.ending.isSome ∨ r.retries = 0 then w.endJob e tag .preempted
    else
      let w := w.releaseGathering e tag
      let w := match r.channel with | some n => (w.letGo n).dropReads n | none => w
      let w := w.modJob tag (fun r =>
        { r with retries := 0, channel := none, expanded := if r.isReplay then r.expanded else none, snapshot := none,
                 binding := none, state := .retryWait, retryTimer := some (e.now + ms (500 + 50 * e.part.node)) })
      w.post .dispatch

/-- A report of the Trunk and Request Unit about one of its jobs (R64, R66).  A required zone lost while the job is ending
orders no abort (R70, log 41). -/
def Works.unitReports (e : Env) (tag : Nat) (u : UnitReport) (w : Works) : Works :=
  match w.liveJob tag with
  | none => w
  | some r =>
    match u with
    | .allGranted => if r.state = .gathering then w.modJob tag (fun r => { r with state := .readyWait }) else w
    | .readyPassed => w.tryStart e tag
    | .roundFailed => if r.state = .readyWait then w.modJob tag (fun r => { r with state := .gathering }) else w
    | .roundsExhausted => w.endJob e tag .noZone
    | .trunkExhausted => w.endJob e tag .noTrunk
    | .zoneLost => if r.ending.isSome then w else w.endJob e tag .noZone
    | .preempted => w.preempt e tag

/-- A further airing is due (R65). -/
def JobRec.furtherDue (r : JobRec) : Bool :=
  !r.lastMark && (if r.isTrigger then !r.fellMark else decide (1 ≤ r.repsLeft))

/-- The channel has reported the end of the airing's audio (R65). -/
def Works.airingEnds (e : Env) (tag : Nat) (w : Works) : Works :=
  match w.liveJob tag with
  | none => w
  | some r =>
    let w := w.modJob tag (fun r => { r with airings := min 255 (r.airings + 1) })
    let w := w.releaseGathering e tag
    if r.furtherDue then
      w.modJob tag (fun r =>
        { r with state := .gap, repsLeft := if r.isTrigger then r.repsLeft else r.repsLeft - 1,
                 gapTimer := some (e.now + sec r.gap) })
    else w.endJob e tag .completed

/-- A report of a playout channel or of its stream about the job that holds it (R64, R65, R70, R88, R99 to R101).  An
essential phrase that fails in AIRING is the job's first ending cause, and the job ends at the boundary (R70, R97). -/
def Works.channelReports (e : Env) (n : Nat) (u : ChannelReport) (w : Works) : Works :=
  match w.jobOn n with
  | none => w
  | some r =>
    match u with
    | .startCondition => w.tryStart e r.tag
    | .endOfAudio => if r.state = .airing then w.airingEnds e r.tag else w
    | .stopComplete => w.endJob e r.tag .stale
    | .failedAtBoundary => w.endJob e r.tag .failedPhrase
    | .essentialFailed =>
      match r.state with
      | .gathering | .readyWait => w.endJob e r.tag .failedPhrase
      | .airing => w.modJob r.tag (fun r => { r with ending := some (r.ending.getD .failedPhrase) })
      | .queued | .binding | .gap | .retryWait => w
    | .phraseSkipped => w.flag r.tag (fun d => { d with phraseSkipped := true })
    | .underrun => w.flag r.tag (fun d => { d with underrun := true })
    | .stalled => w.endJob e r.tag .fetchStall

/-- The gap timer of a job runs out (R65). -/
def Works.gapExpires (e : Env) (tag : Nat) (w : Works) : Works :=
  match w.job tag with
  | none => w
  | some r =>
    if r.state = .gap ∧ r.gapTimer.isSome then
      let w := w.modJob tag (fun r => { r with gapTimer := none })
      if r.isReplay then
        let w := w.modJob tag (fun r => { r with state := .gathering })
        let w := match r.channel with | some n => w.fillFrom e n (r.expanded.getD []) | none => w
        w.beginGathering e tag
      else w.enterBinding e tag
    else w

/-- The retry timer of a job runs out (R66). -/
def Works.retryExpires (e : Env) (tag : Nat) (w : Works) : Works :=
  match w.job tag with
  | none => w
  | some r =>
    if r.state = .retryWait ∧ r.retryTimer.isSome then
      (w.modJob tag (fun r => { r with retryTimer := none, state := .queued })).dispatch e
    else w

/-! ### Notices and staleness (R67, R68) -/

/-- A record is made stale (R68). -/
def Works.makeStale (e : Env) (tag : Nat) (w : Works) : Works :=
  match w.job tag with
  | none => w
  | some r =>
    match r.state with
    | .queued | .retryWait | .gap | .gathering | .readyWait => w.endJob e tag .stale
    | .binding => w.modJob tag (fun r => { r with staleMark := true })
    | .airing =>
      if r.ending.isSome then w
      else
        let w := w.modJob tag (fun r => { r with ending := some .stale })
        match r.channel with
        | some n => w.stopAtBoundary n
        | none => w

/-- The last-airing mark is set; a record in GAP ends COMPLETED (R65). -/
def Works.markLast (e : Env) (tag : Nat) (w : Works) : Works :=
  match w.job tag with
  | none => w
  | some r => if r.state = .gap then w.endJob e tag .completed else w.modJob tag (fun r => { r with lastMark := true })

/-- What a RETIRED notice does to a record of origin LADDER, DELAY or PRESENCE (R67). -/
def Works.retireJob (e : Env) (r : JobRec) (w : Works) : Works :=
  match r.state with
  | .queued | .retryWait | .binding => w.makeStale e r.tag
  | .gathering | .readyWait | .airing | .gap => w.markLast e r.tag

/-- The reference time of a record that the revised call no longer has (R67). -/
def referenceLost (c : CallRec) (o : Origin) : Bool :=
  match o with
  | .ladder _ _ | .delay _ _ | .presence _ =>
    match referenceSide o c.kind with
    | .arrival => !c.kind.hasArr
    | .departure => !c.kind.hasDep
  | _ => false

/-- What a notice does to one record whose call reference names its slot and call id (R67). -/
def Works.noticeJob (e : Env) (kind : NoticeKind) (r : JobRec) (w : Works) : Works :=
  match kind with
  | .cancelled | .moved | .removed | .renewed => w.makeStale e r.tag
  | .retired _ => if r.origin.needsLive then w.retireJob e r else w
  | .revised =>
    match r.callRef.bind e.callFor with
    | some c => if referenceLost c r.origin then w.makeStale e r.tag else w
    | none => w

/-- A notice of the Call Table (R67), taken for its records in table order (log 38). -/
def Works.takeNotice (e : Env) (kind : NoticeKind) (slot id : Nat) (w : Works) : Works :=
  (w.jobs.recs.filter (fun r => match r.callRef with | some c => c.slot = slot && c.id = id | none => false)).foldl
    (fun w r => w.noticeJob e kind r) w

/-! ### QUIET (R69) -/

/-- The code a record held back by QUIET ends with (R69). -/
def quietCode (r : JobRec) : Code := if r.airings = 0 then .suppressed else .completed

/-- What entry to QUIET does to one record of class OPERATIONAL or INFORMATION (R69). -/
def Works.quietJob (e : Env) (r : JobRec) (w : Works) : Works :=
  match r.state with
  | .queued | .retryWait | .binding | .gathering | .readyWait => w.endJob e r.tag (quietCode r)
  | .airing => w.modJob r.tag (fun r => { r with lastMark := true })
  | .gap => w.endJob e r.tag .completed

/-- Entry to QUIET at the Job Table (R69): its records in table order (log 38). -/
def Works.quietJobs (e : Env) (w : Works) : Works :=
  (w.jobs.recs.filter (fun r => r.cls.isLow)).foldl (fun w r => w.quietJob e r) w

/-! ### Triggers (R51) -/

/-- The request of a trigger entry; none when it names no template or no zone (R51). -/
def triggerRequest (e : Env) (input : Nat) : Option JobRequest :=
  match e.part.cfg.triggers[input]? with
  | none => none
  | some t =>
    let z := cleanZones t.required t.optional
    match t.template with
    | none => none
    | some template =>
      if z.1 = [] ∧ z.2 = [] then none
      else
        some { origin := .trigger input, callRef := none, content := .template template, cls := t.cls, reps := 0, gap := t.gap,
               required := z.1, optional := z.2, notBefore := none, replay := none }

/-- The trigger job of an input. -/
def Works.triggerJob (w : Works) (input : Nat) : Option Nat := (w.jobs.triggerJobs[input]?).join

/-- A rising edge of a trigger input (R51). -/
def Works.triggerRises (e : Env) (input : Nat) (w : Works) : Works :=
  match w.triggerJob input with
  | some tag => w.modJob tag (fun r => { r with fellMark := false })
  | none =>
    match triggerRequest e input with
    | some q => w.takeRequest e q
    | none => w

/-- A falling edge of a trigger input: the input-fell mark is set, and a job in GAP ends COMPLETED (R51, R65). -/
def Works.triggerFalls (e : Env) (input : Nat) (w : Works) : Works :=
  match w.triggerJob input with
  | none => w
  | some tag =>
    match w.job tag with
    | none => w
    | some r => if r.state = .gap then w.endJob e tag .completed else w.modJob tag (fun r => { r with fellMark := true })

/-! ### Console requests (R26, R50) -/

/-- The live calls of a face, or of every face served when it is 0, with their slots (R26). -/
def candidatesOf (e : Env) (face : Nat) : List (Nat × CallRec) :=
  ((List.range 32).filterMap (fun i => (e.callAt i).map (fun c => (i, c)))).filter
    (fun x => x.2.state.live && (if face = 0 then e.serves x.2.face else x.2.face = face && e.serves face))

/-- The expected reference time of a call, day-adjusted against a base day (R2). -/
def expectedAt (base : Nat) (c : CallRec) : Int := dayAdjusted c.expectedRef c.day base

/-- One call stands before another: the earlier expected reference time, the lower call id among equals (R2). -/
def earlier (base : Nat) (a b : Nat × CallRec) : Bool :=
  decide (expectedAt base a.2 < expectedAt base b.2 ∨ (expectedAt base a.2 = expectedAt base b.2 ∧ a.2.id ≤ b.2.id))

/-- The base day of a comparison of calls: the first one's (R2, log 23). -/
def baseDay (l : List (Nat × CallRec)) : Nat := match l with | x :: _ => x.2.day | [] => 0

/-- Calls in ascending expected reference time (R2). -/
def inOrder (l : List (Nat × CallRec)) : List (Nat × CallRec) := sortBy (earlier (baseDay l)) l

/-- A call's expected reference time less a service second of the current service day (R2, R26). -/
def fromNow (e : Env) (second : Nat) (c : CallRec) : Int :=
  dayAdjusted c.expectedRef c.day e.clock.position.1 - (second : Int)

/-- The call a match names (R26). -/
def matchCall (e : Env) : CallMatch → Option (Nat × CallRec)
  | .exact face id => (candidatesOf e face).find? (fun x => x.2.id = id)
  | .firstAfter face second =>
    if e.clock.known then (inOrder (candidatesOf e face)).find? (fun x => decide (0 ≤ fromNow e second x.2)) else none
  | .lastBefore face second =>
    if e.clock.known then (inOrder (candidatesOf e face)).reverse.find? (fun x => decide (fromNow e second x.2 ≤ 0)) else none

/-- The peer table holds a CONSOLE profile for a node (R50). -/
def isConsole (e : Env) (node : Nat) : Bool :=
  match e.peers[node - 1]? with
  | some p => node ≠ 0 && (match p.profile with | some q => q.kind = .console | none => false)
  | none => false

/-- The template map lists a template as provided (R50). -/
def provided (e : Env) (t : Nat) : Bool := e.part.cfg.templateMap.getD t false

/-- The checks of R50: the code of the first that fails, or the call reference. -/
def checkAnnounce (e : Env) (f : Frame) (a : AnnounceBody) : Except Code (Option CallRef) :=
  if (match a.content with | .template t => !provided e t | .phrases _ => false) then .error .badRequest
  else if a.required = [] ∧ a.optional = [] then .error .badRequest
  else if f.cls = .emergency ∧ isConsole e f.source = false then .error .badRequest
  else
    match a.callMatch with
    | none => .ok none
    | some m =>
      match matchCall e m with
      | some x => .ok (some { slot := x.1, id := x.2.id, rev := x.2.rev })
      | none => .error .noMatch

/-- The not-before of a request made now (R50). -/
def notBeforeNow (e : Env) (second : Nat) : NotBefore :=
  { second := second, day := if e.clock.known then some e.clock.position.1 else none }

/-- An ANNOUNCE frame is taken (R50). -/
def Works.announce (e : Env) (f : Frame) (a : AnnounceBody) (w : Works) : Works :=
  let origin : Origin := .console f.source a.request
  match checkAnnounce e f a with
  | .error code => w.issueTag.refuse e w.jobs.nextTag origin none a.content.report code
  | .ok callRef =>
    let z := cleanZones a.required a.optional
    w.takeRequest e
      { origin := origin, callRef := callRef, content := a.content, cls := f.cls, reps := a.reps, gap := a.gap,
        required := z.1, optional := z.2, notBefore := a.notBefore.map (notBeforeNow e), replay := none }

/-! ### REPLAY-LAST (R52) -/

/-- The last-aired record a REPLAY-LAST names: of a served face, or the general one for face 0 (R52). -/
def Works.replaySource (e : Env) (w : Works) (face : Nat) : Option LastAired :=
  let place := if face = 0 then some 4 else e.facePosition face
  place.bind (fun i => (w.jobs.lastAired[i]?).join)

/-- A REPLAY-LAST request (R52). -/
def Works.replayLast (e : Env) (face : Nat) (w : Works) : Works :=
  match w.replaySource e face with
  | none => w.issueTag.refuse e w.jobs.nextTag (.replay face) none (.none 0) .badRequest
  | some l =>
    w.takeRequest e
      { origin := .replay face, callRef := none, content := l.content, cls := l.cls, reps := 0, gap := 2,
        required := l.required, optional := l.optional, notBefore := none, replay := some (l.list, l.duration) }

/-! ### Clock events and service reset (R50, R57, R72) -/

/-- The days of not-before times are fixed at the moment the clock becomes KNOWN (R50). -/
def Works.fixDays (e : Env) (w : Works) : Works :=
  let day := e.clock.position.1
  let fix (r : JobRec) : JobRec :=
    { r with notBefore := r.notBefore.map (fun nb => { nb with day := some (nb.day.getD day) }) }
  { w with jobs := { w.jobs with recs := w.jobs.recs.map fix } }

/-- The Job Table's service reset (R72): counters of tags and creation kept. -/
def Works.resetJobs (w : Works) : Works :=
  { w with jobs := { w.jobs with recs := [], triggerJobs := [none, none], lastAired := [none, none, none, none, none] } }

end Sys2Proof.Machine
end

