-- ==== Sys2Proof/Machine/Ladder.lean ====
section
/-! DEFINITION. The Ladder Evaluator and the delay hysteresis (chapter 2), the states of a call (section 1.3), and the
choice of a face's current call (R18). -/

namespace Sys2Proof.Machine

open Sys2Proof

/-! ### Changes of a call record -/

/-- The number 0..11 of a step state: the arrival ladder's positions first. -/
def stepPlace (side : LadderSide) (i : Nat) : Nat := match side with | .arrival => i | .departure => 6 + i

/-- The ladder of a side. -/
def ladderOf (f : FaceCfg) : LadderSide → Ladder
  | .arrival => f.arrival
  | .departure => f.departure

/-- A step state. -/
def CallRec.step (c : CallRec) (i : Nat) : StepState := c.steps.getD i .pending

/-- A step state is set. -/
def CallRec.setStep (i : Nat) (s : StepState) (c : CallRec) : CallRec := { c with steps := c.steps.set i s }

/-- The positions of a ladder that hold a step, with the step. -/
def ladderSteps (l : Ladder) : List (Nat × LadderStep) :=
  (List.range l.steps.length).filterMap (fun i => (l.steps[i]?).join.map (fun s => (i, s)))

/-- The steps of one side still PENDING become SKIPPED, where the ladder holds a step. -/
def CallRec.skipSide (f : FaceCfg) (side : LadderSide) (c : CallRec) : CallRec :=
  (ladderSteps (ladderOf f side)).foldl (fun c x =>
    if c.step (stepPlace side x.1) = .pending then c.setStep (stepPlace side x.1) .skipped else c) c

/-- The TIME-BASED steps of one side still PENDING become SKIPPED (R19). -/
def CallRec.skipTimed (f : FaceCfg) (side : LadderSide) (c : CallRec) : CallRec :=
  ((ladderSteps (ladderOf f side)).filter (fun x => x.2.kind ≠ .onArrival)).foldl (fun c x =>
    if c.step (stepPlace side x.1) = .pending then c.setStep (stepPlace side x.1) .skipped else c) c

/-- Entry to a retired state (R12).  The steps it makes SKIPPED leave the closing point as it stood (log 37). -/
def CallRec.retire (now : Instant) (s : CallState) (c : CallRec) : CallRec :=
  { c with state := s, dwell := none, retention := some (now + sec 600),
           steps := c.steps.map (fun x => if x = .pending then .skipped else x) }

/-- The closing point is reached (R15). -/
def CallRec.reachClosing (c : CallRec) : CallRec :=
  { c with closingReached := true,
           state := match c.state with
             | .atPlatform => .closing
             | .planned => .due
             | s => s }

/-- Entry to AT-PLATFORM (R13, R15, R18, R19): an ARR call's dwell timer starts, and a call past its closing point goes
on to CLOSING. -/
def CallRec.enterPlatform (e : Env) (c : CallRec) : CallRec :=
  { c with state := if c.closingReached ∧ c.kind.hasDep then .closing else .atPlatform,
           dwell := if c.kind = .arr then some (e.now + sec e.part.cfg.settings.dwell) else none }

/-! ### Requests of the Call Table and the evaluator (R25, R44, R45) -/

/-- The reference of a call in a slot (R25). -/
def callRefOf (slot : Nat) (c : CallRec) : CallRef := { slot := slot, id := c.id, rev := c.rev }

/-- A request with given zone lists; none when both are empty (R25, R45). -/
def requestFor (o : Origin) (ref : Option CallRef) (template : Nat) (cls : Cls) (reps gap : Nat) (z : List Nat × List Nat) :
    List JobRequest :=
  if z.1 = [] ∧ z.2 = [] then []
  else
    [{ origin := o, callRef := ref, content := .template template, cls := cls, reps := reps, gap := gap, required := z.1,
       optional := z.2, notBefore := none, replay := none }]

/-- The request of an announcement entry; none when it names no template (R25). -/
def requestOfEntry (o : Origin) (ref : Option CallRef) (x : Entry) (z : List Nat × List Nat) : List JobRequest :=
  match x.template with
  | some t => requestFor o ref t x.cls x.reps x.gap z
  | none => []

/-- The request of a ladder step (R19, R45). -/
def requestOfStep (o : Origin) (ref : Option CallRef) (s : LadderStep) (f : FaceCfg) : List JobRequest :=
  requestFor o ref s.template s.cls s.reps s.gap (selectorZones s.sel f)

/-! ### Ladder evaluation (R34 to R36) -/

/-- The lead of a TIME-BASED step. -/
def leadOf (s : LadderStep) : Option Nat := match s.kind with | .timeBased l => some l | .onArrival => none

/-- The TIME-BASED steps of a ladder: position, lead, step. -/
def timedSteps (l : Ladder) : List (Nat × Nat × LadderStep) :=
  (ladderSteps l).filterMap (fun x => (leadOf x.2).map (fun lead => (x.1, lead, x.2)))

/-- The relative time of a step (R35). -/
def stepRelative (e : Env) (c : CallRec) (expected lead : Nat) : Int := relTime e.clock ((expected : Int) - (lead : Int)) c.day

/-- The due steps of a ladder (R30, R35). -/
def dueSteps (e : Env) (c : CallRec) (side : LadderSide) (expected : Nat) (l : Ladder) : List (Nat × Nat × LadderStep) :=
  if e.clock.known then
    (timedSteps l).filter (fun x =>
      c.step (stepPlace side x.1) = .pending && decide (stepRelative e c expected x.2.1 ≤ 0))
  else []

/-- The step of smallest lead (R36). -/
def latestStep (l : List (Nat × Nat × LadderStep)) : Option (Nat × Nat × LadderStep) :=
  bestBy (fun a b => decide (a.2.1 < b.2.1)) l

/-- What the evaluation of one ladder yields: the call, the requests, whether a step left PENDING, and whether the
ladder's last TIME-BASED step did. -/
structure Evaluation where
  call : CallRec
  requests : List JobRequest
  left : Bool
  lastLeft : Bool
  deriving DecidableEq, Repr

/-- The grace and catch-up rule on one ladder (R36). -/
def evaluateLadder (e : Env) (slot : Nat) (f : FaceCfg) (side : LadderSide) (expected : Nat) (c : CallRec) : Evaluation :=
  let due := dueSteps e c side expected (ladderOf f side)
  match latestStep due with
  | none => { call := c, requests := [], left := false, lastLeft := false }
  | some s =>
    let skipped := due.foldl (fun c x => c.setStep (stepPlace side x.1) .skipped) c
    let fires := decide (-(e.part.cfg.settings.grace : Int) ≤ stepRelative e c expected s.2.1)
    let last := match latestStep (timedSteps (ladderOf f side)) with | some x => due.any (fun y => y.1 = x.1) | none => false
    { call := if fires then skipped.setStep (stepPlace side s.1) .fired else skipped,
      requests := if fires then requestOfStep (.ladder slot (stepPlace side s.1 + 1)) (some (callRefOf slot c)) s.2.2 f else [],
      left := true, lastLeft := last }

/-- The closing point of a departure ladder without TIME-BASED steps is reached (R15, R36). -/
def closingByTime (e : Env) (f : FaceCfg) (c : CallRec) : Bool :=
  match c.expectedDep with
  | some t =>
    e.clock.known && !c.closingReached && (timedSteps f.departure).isEmpty && decide (relTime e.clock (t : Int) c.day ≤ 0)
  | none => false

/-- The evaluation of a live call (R34, R36, R37): CLAMPED, the arrival ladder, the departure ladder, and what they report
to the Call Table. -/
def evaluateCall (e : Env) (slot : Nat) (c : CallRec) : CallRec × List JobRequest :=
  if c.state.live = false then (c, [])
  else
    let c := if c.needsClamp then { c with clamped := true } else c
    match e.face c.face with
    | none => (c, [])
    | some face =>
      let f := face.cfg
      let a : Evaluation :=
        match c.expectedArr with
        | some t => evaluateLadder e slot f .arrival t c
        | none => { call := c, requests := [], left := false, lastLeft := false }
      let d : Evaluation :=
        match a.call.expectedDep with
        | some t => evaluateLadder e slot f .departure t a.call
        | none => { call := a.call, requests := [], left := false, lastLeft := false }
      let c := d.call
      let c := if (a.left || d.left) && decide (c.state = .planned) then { c with state := .due } else c
      let c := if d.lastLeft || closingByTime e f c then c.reachClosing else c
      (c, a.requests ++ d.requests)

/-! ### Delay hysteresis (R42 to R44) -/

/-- The side whose delay entry and reference a DELAY job takes (R44). -/
def delaySide (c : CallRec) : LadderSide := if c.kind.hasDep then .departure else .arrival

/-- The DELAY request of a call; none when the entry names no template or no zone (R44). -/
def delayRequest (e : Env) (slot : Nat) (c : CallRec) : List JobRequest :=
  match e.face c.face with
  | none => []
  | some face =>
    let x := (ladderOf face.cfg (delaySide c)).delay
    requestOfEntry (.delay slot (delaySide c)) (some (callRefOf slot c)) x (selectorZones x.sel face.cfg)

/-- The test of R42 that a DELAY job is to be requested. -/
def delayMoved (theta delta m : Nat) (last : Option Nat) : Bool :=
  decide (theta ≤ m) &&
    (match last with
     | none => true
     | some l => decide (l + delta ≤ m ∨ m + delta ≤ l))

/-- The delay hysteresis (R42), run when a revision changed the reported delay. -/
def hysteresis (e : Env) (slot : Nat) (c : CallRec) : CallRec × List JobRequest :=
  let s := e.part.cfg.settings
  let m := announcedMinutes c.delay
  if c.state.live = false then (c, [])
  else if (c.state = .planned ∨ c.state = .due) ∧ delayMoved s.theta s.delta m c.mLast then
    match delayRequest e slot c with
    | [] => (c, [])
    | q => ({ c with mLast := some m }, q)
  else if m < s.theta then ({ c with mLast := none }, [])
  else (c, [])

/-! ### The table and the faces -/

/-- A slot is set. -/
def Env.setCall (slot : Nat) (c : Option CallRec) (e : Env) : Env := { e with calls := e.calls.set slot c }

/-- The live calls of a face with their slots. -/
def liveCallsOf (e : Env) (face : Nat) : List (Nat × CallRec) :=
  ((List.range 32).filterMap (fun i => (e.callAt i).map (fun c => (i, c)))).filter
    (fun x => x.2.state.live && decide (x.2.face = face))

/-- A call at its face: AT-PLATFORM or CLOSING. -/
def CallState.atFace : CallState → Bool
  | .atPlatform | .closing => true
  | _ => false

/-- The current call of a face (R18). -/
def chooseCurrent (e : Env) (face : Nat) : Option (Nat × CallRec) :=
  let l := liveCallsOf e face
  match l.find? (fun x => x.2.state.atFace) with
  | some x => some x
  | none => (inOrder l).head?

/-- The current call of a face position is chosen again (R18); the slot of a call it changed is answered. -/
def reselect (i : Nat) (e : Env) : Env × List Nat :=
  match (e.faces[i]?).join with
  | none => (e, [])
  | some f =>
    let choice := chooseCurrent e f.cfg.number
    let e := { e with faces := e.faces.set i (some { f with current := choice.map (·.1) }) }
    match choice with
    | none => (e, [])
    | some (slot, c) =>
      if f.presence ∧ c.state.atFace = false then
        (e.setCall slot (some ((c.skipSide f.cfg .arrival).enterPlatform e)), [slot])
      else (e, [])

/-- The positions of the faces with these numbers are chosen for again, in position order (R9, step 4). -/
def reselectFaces (numbers : List Nat) (e : Env) : Env × List Nat :=
  [0, 1, 2, 3].foldl (fun r i =>
    match (r.1.faces[i]?).join with
    | some f =>
      if numbers.contains f.cfg.number then
        let x := reselect i r.1
        (x.1, r.2 ++ x.2)
      else r
    | none => r) (e, [])

/-- One call at step 5 of a pass: the delay hysteresis when its slot is `delayed`, then its ladders (R9, R42). -/
def evaluateSlot (delayed : Option Nat) (slot : Nat) (e : Env) : Env × List JobRequest :=
  match e.callAt slot with
  | none => (e, [])
  | some c =>
    let h := if delayed = some slot then hysteresis e slot c else (c, [])
    let x := evaluateCall e slot h.1
    (e.setCall slot (some x.1), h.2 ++ x.2)

/-- The calls of these slots are evaluated in ascending slot number (R33, step 5). -/
def evaluateSlots (delayed : Option Nat) (slots : List Nat) (e : Env) : Env × List JobRequest :=
  ((List.range 32).filter (fun i => slots.contains i)).foldl (fun r i =>
    let x := evaluateSlot delayed i r.1
    (x.1, r.2 ++ x.2)) (e, [])

/-- Steps 2 to 5 of R9, after the call records have been updated: notices, own requests, the current calls of the faces
named, and the evaluation of the calls changed. -/
def finishWork (notices : List Note) (own : List JobRequest) (faces slots : List Nat) (delayed : Option Nat) (n : Node) : Node :=
  let s := reselectFaces faces n.env
  let x := evaluateSlots delayed (slots ++ s.2) s.1
  { env := x.1, ws := n.ws.postAll (notices ++ (own ++ x.2).map Note.request) }

end Sys2Proof.Machine
end

