-- ==== Sys2Proof/Machine/Calls.lean ====
section
/-! DEFINITION. The Call Table, the Face Monitor and the Station Clock (chapters 1 and 2): taking CALL and TIME frames,
the tick, the pass of a clock event, presence, retention and dwell timers. -/

namespace Sys2Proof.Machine

open Sys2Proof

/-! ### Taking a CALL frame (R4 to R8, R21 to R24) -/

/-- A counter of the node. -/
def Node.bump (c : Counter) (n : Node) : Node := { n with ws := n.ws.bump c }

/-- A slot of the node's table is set. -/
def Node.setCall (slot : Nat) (c : Option CallRec) (n : Node) : Node := { n with env := n.env.setCall slot c }

/-- The slot that holds a call id, with its record. -/
def slotOf (e : Env) (id : Nat) : Option (Nat × CallRec) :=
  (List.range 32).findSome? (fun i => (e.callAt i).bind (fun c => if c.id = id then some (i, c) else none))

/-- The clamp of R6: an ARR-DEP call does not depart before it arrives; the stored departure and whether it was clamped. -/
def clampDeparture (b : CallBody) : Option Nat × Bool :=
  match b.kind, b.sArr, b.sDep with
  | .arrDep, some a, some d => if d < a then (some a, true) else (some d, false)
  | _, _, d => (d, false)

/-- A scheduled time the kind needs is absent (Table 1-2, step 1). -/
def lacksTime (b : CallBody) : Bool := (b.kind.hasArr && b.sArr.isNone) || (b.kind.hasDep && b.sDep.isNone)

/-- A call taken as new (R6). -/
def newCall (b : CallBody) (oldFace : Option Nat) : CallRec :=
  let dep := clampDeparture b
  { id := b.id, rev := b.rev, day := b.day, face := b.face, oldFace := oldFace, kind := b.kind, statusCancelled := b.cancelled,
    sArr := b.sArr, sDep := dep.1, delay := b.delay, dest := b.dest, origin := b.origin, operator := b.operator,
    formation := b.formation, points := b.points, state := .planned, steps := List.replicate 12 .pending, mLast := none,
    early := false, unconfirmed := false, clamped := dep.2, expired := false, closingReached := false, retention := none,
    dwell := none }

/-- The fields of R8 replaced by the frame's. -/
def revisedFields (b : CallBody) (c : CallRec) : CallRec :=
  let dep := clampDeparture b
  { c with rev := b.rev, kind := b.kind, sArr := b.sArr, sDep := dep.1, delay := b.delay, dest := b.dest, origin := b.origin,
           operator := b.operator, formation := b.formation, points := b.points, clamped := dep.2 }

/-- The zone lists of an ALTERATION job (R22 to R24). -/
def alterationRequest (slot : Nat) (c : CallRec) (f : FaceCfg) (required optional : List Nat) : List JobRequest :=
  requestOfEntry (.alteration slot) (some (callRefOf slot c)) f.alteration (cleanZones required optional)

/-- The ALTERATION request of a call taken as new whose old face differs from its face (R24). -/
def newAlteration (e : Env) (slot : Nat) (c : CallRec) : List JobRequest :=
  match c.oldFace, e.face c.face with
  | some o, some f => if o = c.face then [] else alterationRequest slot c f.cfg f.cfg.zones f.cfg.concourse
  | _, _ => []

/-- A call is written into a slot as new, and the work of R9 follows; `notices` and `faces` are those of an evicted call. -/
def takeNew (slot : Nat) (b : CallBody) (oldFace : Option Nat) (notices : List Note) (faces : List Nat) (n : Node) : Node :=
  let c := newCall b oldFace
  finishWork notices (newAlteration n.env slot c) (b.face :: faces) [slot] none (n.setCall slot (some c))

/-- The old face of a call taken as new that was not in MOVED (R24). -/
def previousFace (b : CallBody) : Option Nat := b.prev.filter (fun p => p ≠ b.face)

/-- A lowest slot that is FREE. -/
def freeSlot (e : Env) : Option Nat := (List.range 32).find? (fun i => (e.callAt i).isNone)

/-- The retired slot with the least retention time left, the lowest-numbered among equals (R7). -/
def oldestRetired (e : Env) : Option Nat :=
  (bestBy (fun (a b : Nat × Nat) => decide (a.2 < b.2))
    ((List.range 32).filterMap (fun i =>
      (e.callAt i).bind (fun c => if c.state.live then none else some (i, c.retention.getD 0))))).map (·.1)

/-- The scheduled reference time of a call against a base day (R2, R7). -/
def scheduledAt (base : Nat) (c : CallRec) : Int := dayAdjusted (scheduledRef c.sArr c.sDep) c.day base

/-- The PLANNED call of latest scheduled reference time, the higher call id among equals (R7). -/
def latestPlanned (e : Env) (base : Nat) : Option (Nat × CallRec) :=
  bestBy (fun (a b : Nat × CallRec) =>
      decide (scheduledAt base b.2 < scheduledAt base a.2
        ∨ (scheduledAt base a.2 = scheduledAt base b.2 ∧ b.2.id < a.2.id)))
    ((List.range 32).filterMap (fun i => (e.callAt i).bind (fun c => if c.state = .planned then some (i, c) else none)))

/-- A new call looks for its slot (R7). -/
def findSlot (b : CallBody) (n : Node) : Node :=
  match freeSlot n.env with
  | some i => takeNew i b (previousFace b) [] [] n
  | none =>
    match oldestRetired n.env with
    | some i => takeNew i b (previousFace b) [] [] (n.bump .tableFull)
    | none =>
      let n := n.bump .tableFull
      match latestPlanned n.env b.day with
      | some (i, c) =>
        if (scheduledRef b.sArr (clampDeparture b).1 : Int) < scheduledAt b.day c then
          takeNew i b (previousFace b) [.notice .removed i c.id c.rev] [c.face] n
        else n
      | none => n

/-- A cancellation (R21). -/
def cancelCall (slot : Nat) (c : CallRec) (b : CallBody) (n : Node) : Node :=
  let c' := { (c.retire n.env.now .cancelled) with rev := b.rev, statusCancelled := true }
  let own :=
    match n.env.face c.face with
    | some f =>
      if c.state = .planned ∨ c.state = .due then
        requestOfEntry (.cancellation slot) (some (callRefOf slot c')) f.cfg.cancellation
          (selectorZones f.cfg.cancellation.sel f.cfg)
      else []
    | none => []
  finishWork [.notice .cancelled slot c.id b.rev] own [c.face] [] none (n.setCall slot (some c'))

/-- A platform alteration away from this node (R23). -/
def moveAway (slot : Nat) (c : CallRec) (b : CallBody) (n : Node) : Node :=
  let c' := { (c.retire n.env.now .moved) with rev := b.rev, oldFace := some c.face }
  let own :=
    match n.env.face c.face with
    | some f => alterationRequest slot c' f.cfg f.cfg.zones []
    | none => []
  finishWork [.notice .moved slot c.id b.rev] own [c.face] [] none (n.setCall slot (some c'))

/-- A platform alteration within this node (R22). -/
def moveWithin (slot : Nat) (c : CallRec) (b : CallBody) (n : Node) : Node :=
  let c' :=
    { (revisedFields b c) with
      face := b.face, oldFace := some c.face, steps := List.replicate 12 .pending, state := .planned, dwell := none,
      closingReached := false }
  let zonesOf (face : Nat) : List Nat := match n.env.face face with | some f => f.cfg.zones | none => []
  let own :=
    match n.env.face b.face with
    | some f => alterationRequest slot c' f.cfg (zonesOf c.face ++ f.cfg.zones) f.cfg.concourse
    | none => []
  finishWork [.notice .renewed slot c.id b.rev] own [c.face, b.face] [slot] none (n.setCall slot (some c'))

/-- The steps of the ladders a revision takes the time of become SKIPPED (R8). -/
def skipLost (e : Env) (c : CallRec) : CallRec :=
  match e.face c.face with
  | none => c
  | some f =>
    let c := if c.kind.hasArr then c else c.skipSide f.cfg .arrival
    if c.kind.hasDep then c else c.skipSide f.cfg .departure

/-- The dwell timer and CLOSING after a revision (R8); `was` is the record before it. -/
def revisedState (e : Env) (was c : CallRec) : CallRec :=
  let dwell := some (e.now + sec e.part.cfg.settings.dwell)
  match c.state with
  | .closing => if c.kind = .arr then { c with state := .atPlatform, dwell := dwell } else c
  | .atPlatform => if c.kind = .arr then (if was.kind = .arr then c else { c with dwell := dwell }) else { c with dwell := none }
  | _ => c

/-- A revision of a live call on its own face (R8). -/
def reviseCall (slot : Nat) (c : CallRec) (b : CallBody) (n : Node) : Node :=
  let c' := revisedState n.env c (skipLost n.env (revisedFields b c))
  finishWork [.notice .revised slot c.id b.rev] [] [c.face] [slot] (if c'.delay = c.delay then none else some slot)
    (n.setCall slot (some c'))

/-- The checks of Table 1-2 from step 5 on, for a slot that holds the call id on the frame's service day. -/
def takeHeld (slot : Nat) (c : CallRec) (b : CallBody) (n : Node) : Node :=
  match revOrder b.rev c.rev with
  | .equal => n.bump .duplicatesDropped
  | .older => n.bump .staleRevisions
  | .newer =>
    if c.state.live then
      if b.cancelled then cancelCall slot c b n
      else if n.env.serves b.face = false then moveAway slot c b n
      else if b.face ≠ c.face then moveWithin slot c b n
      else reviseCall slot c b n
    else if c.state = .moved ∧ b.cancelled = false ∧ n.env.serves b.face then
      takeNew slot b (some (b.prev.getD c.face)) [] [] n
    else n.bump .staleRevisions

/-- Steps 12 to 14 of Table 1-2: no slot holds the call id. -/
def takeUnheld (b : CallBody) (n : Node) : Node :=
  if b.cancelled ∨ n.env.serves b.face = false then n else findSlot b n

/-- A service day is outside the day window of the clock day (R14). -/
def outsideWindow (e : Env) (day : Nat) : Bool :=
  let d := serialDiff day e.clock.day
  decide (d < -1 ∨ 1 < d)

/-- A CALL frame is taken (R4, Table 1-2). -/
def takeCall (b : CallBody) (n : Node) : Node :=
  if b.cancelled = false ∧ lacksTime b then n.bump .malformedFrames
  else if n.env.clock.known ∧ outsideWindow n.env b.day then n.bump .staleRevisions
  else
    match slotOf n.env b.id with
    | none => takeUnheld b n
    | some (slot, c) =>
      if c.day = b.day then takeHeld slot c b n
      else if c.state.live then n.bump .staleRevisions
      else takeUnheld b (n.setCall slot none)

/-! ### The pass of a clock event (R12, R14, R28, R33) -/

/-- The calls retired by the day window (R14, R28). -/
def expireByDay (e : Env) (c : CallRec) : CallRec :=
  if c.state.live ∧ outsideWindow e c.day then { (c.retire e.now .finished) with expired := true } else c

/-- The unconfirmed tests (R12). -/
def unconfirmedTest (e : Env) (c : CallRec) : CallRec :=
  let passed (t : Nat) : Bool := decide (relTime e.clock ((t + 600 : Nat) : Int) c.day ≤ 0)
  if c.state.live = false then c
  else
    match c.expectedDep, c.expectedArr with
    | some t, _ => if passed t then { (c.retire e.now .departed) with unconfirmed := true } else c
    | none, some t =>
      if passed t ∧ (c.state = .planned ∨ c.state = .due) then { (c.retire e.now .finished) with unconfirmed := true } else c
    | none, none => c

/-- The pass of a clock event (R33); `window` when the day window is applied.  The RETIRED notices go in ascending slot
number, those of both tests together (log 36). -/
def clockPass (window : Bool) (n : Node) : Node :=
  let e := n.env
  let step (c : CallRec) : CallRec := unconfirmedTest e (if window then expireByDay e c else c)
  let after := e.calls.map (fun c => c.map step)
  let gone := (List.range 32).filterMap (fun i =>
    (e.callAt i).bind (fun c => if c.state.live ∧ (step c).state.live = false then some (i, c) else none))
  let notices := gone.map (fun x => Note.notice (.retired (step x.2).state) x.1 x.2.id x.2.rev)
  finishWork notices [] (gone.map (·.2.face)) (List.range 32) none { n with env := { e with calls := after } }

/-- The clock advances by one second (R28); whether it rolled over. -/
def Clock.advance (now : Instant) (c : Clock) : Clock × Bool :=
  if 86400 ≤ c.second + 1 then
    ({ c with second := 0, day := (c.day + 1) % 65536, nextTick := some (now + sec 1) }, true)
  else ({ c with second := c.second + 1, nextTick := some (now + sec 1) }, false)

/-- TICK (R28): the clock advances, the Call Table runs its pass, and the Job Table tests its not-before times. -/
def tickHappens (n : Node) : Node :=
  if n.env.clock.known ∧ n.env.clock.nextTick.isSome then
    let c := n.env.clock.advance n.env.now
    let m := clockPass c.2 { n with env := { n.env with clock := c.1 } }
    { m with ws := m.ws.post .dispatch }
  else n

/-- A TIME frame is taken (R29): the clock is set, CLOCK-UNKNOWN goes when it was UNKNOWN, and the pass follows. -/
def takeTime (day second : Nat) (n : Node) : Node :=
  let was := n.env.clock.known
  let env := { n.env with clock := { day := day, second := second, known := true, nextTick := some (n.env.now + sec 1) } }
  let ws := if was then n.ws else (n.ws.faultEvent env (fun f => { f with clockUnknown := false })).fixDays env
  let m := clockPass true { env := env, ws := ws }
  { m with ws := m.ws.post .dispatch }

/-! ### Presence (R17, R19, R20) -/

/-- PRESENCE_INPUT_CHANGE (R17). -/
def presenceChanges (position : Nat) (level : Bool) (n : Node) : Node :=
  if levelAt n.env.pins.pres position = level then n
  else
    let e := { n.env with pins := { n.env.pins with pres := n.env.pins.pres.set position level } }
    let e :=
      match (e.faces[position]?).join with
      | some f =>
        let timer := if level = f.presence then none else some (e.now + sec e.part.cfg.settings.debounce)
        { e with faces := e.faces.set position (some { f with debounce := timer }) }
      | none => e
    { n with env := e }

/-- The ON-ARRIVAL step of an arrival ladder, with its position. -/
def onArrivalStep (f : FaceCfg) : Option (Nat × LadderStep) := (ladderSteps f.arrival).find? (fun x => x.2.kind = .onArrival)

/-- A rise brings a call in PLANNED or DUE to AT-PLATFORM: its arrival TIME-BASED steps still PENDING are SKIPPED, and its
PENDING ON-ARRIVAL step fires when it has an arrival (R19). -/
def riseAtCall (e : Env) (slot : Nat) (f : FaceCfg) (c : CallRec) : CallRec × List JobRequest :=
  let arrived := (c.skipTimed f .arrival).enterPlatform e
  match onArrivalStep f with
  | some (i, s) =>
    if c.kind.hasArr ∧ c.step i = .pending then
      (arrived.setStep i .fired, requestOfStep (.presence f.number) (some (callRefOf slot c)) s f)
    else (arrived, [])
  | none => (arrived, [])

/-- A rise of presence at a face (R19). -/
def presenceRises (f : FaceRec) (n : Node) : Node :=
  match f.current.bind (fun s => (n.env.callAt s).map (fun c => (s, c))) with
  | none =>
    let own := requestOfEntry (.presence f.cfg.number) none f.cfg.unscheduled (selectorZones f.cfg.unscheduled.sel f.cfg)
    finishWork [] own [] [] none (n.bump .presenceWithoutCall)
  | some (slot, c) =>
    if c.state.atFace then n
    else
      let x := riseAtCall n.env slot f.cfg c
      finishWork [] x.2 [] [slot] none (n.setCall slot (some x.1))

/-- A fall of presence at a face (R20). -/
def presenceFalls (f : FaceRec) (n : Node) : Node :=
  match f.current.bind (fun s => (n.env.callAt s).map (fun c => (s, c))) with
  | none => n.bump .presenceWithoutCall
  | some (slot, c) =>
    if c.state.atFace = false then n.bump .presenceWithoutCall
    else
      let c' :=
        if c.kind.hasDep ∨ c.state = .closing then
          { (c.retire n.env.now .departed) with early := decide (c.state = .atPlatform) || c.early }
        else c.retire n.env.now .finished
      finishWork [.notice (.retired c'.state) slot c.id c.rev] [] [f.cfg.number] [] none (n.setCall slot (some c'))

/-- DEBOUNCE_TIMER_EXPIRY (R17): the debounced presence takes the input's level. -/
def debounceExpires (position : Nat) (n : Node) : Node :=
  match (n.env.faces[position]?).join with
  | none => n
  | some f =>
    if f.debounce.isNone then n
    else
      let level := levelAt n.env.pins.pres position
      let f' := { f with presence := level, debounce := none }
      let m := { n with env := { n.env with faces := n.env.faces.set position (some f') } }
      if level then presenceRises f' m else presenceFalls f' m

/-! ### Timers of a slot (R12, R13) -/

/-- RETENTION_TIMER_EXPIRY (R12): the slot becomes FREE. -/
def retentionExpires (slot : Nat) (n : Node) : Node :=
  match n.env.callAt slot with
  | some c => if c.retention.isSome then n.setCall slot none else n
  | none => n

/-- DWELL_TIMER_EXPIRY (R13): the call goes to FINISHED. -/
def dwellExpires (slot : Nat) (n : Node) : Node :=
  match n.env.callAt slot with
  | none => n
  | some c =>
    if c.dwell.isSome ∧ c.state = .atPlatform then
      finishWork [.notice (.retired .finished) slot c.id c.rev] [] [c.face] [] none
        (n.setCall slot (some (c.retire n.env.now .finished)))
    else n

end Sys2Proof.Machine
end

