-- ==== Sys2Proof/Machine/Agenda.lean ====
section
/-! DEFINITION. Settling: the work that blocks have handed one another within one command is done, first in first out,
until none is left (section 7.7 of 00_scope.md; log 5). -/

namespace Sys2Proof.Machine

open Sys2Proof

/-- One piece of work is done by the block it was handed to. -/
def handle (e : Env) (note : Note) (w : Works) : Works :=
  match note with
  | .notice kind slot id _ => w.takeNotice e kind slot id
  | .request q => w.takeRequest e q
  | .dispatch => w.dispatch e
  | .unit tag u => w.unitReports e tag u
  | .channel n u => w.channelReports e n u
  | .verdict tag zone v => w.verdictReaches e tag zone v none
  | .revoked tag zone r => w.takeRevocation e tag zone r
  | .seizeLost tag trunk => w.seizeUnsent e tag trunk
  | .askUnsent tag serial => w.startAnswers e tag serial
  | .readyDue tag => w.readyExpires e tag
  | .beginRound tag => w.startRound e tag
  | .testStart n => w.testStart e n
  | .flashLook => w.lookAtFlash e

/-- The agenda is worked off; `fuel` bounds the pieces of work (log 5). -/
def settle (e : Env) : Nat → Works → Works
  | 0, w => w
  | fuel + 1, w =>
    match w.agenda with
    | [] => w
    | note :: rest => settle e fuel (handle e note { w with agenda := rest })

/-- The bound on the pieces of work of one command (log 5). -/
def settleFuel : Nat := 65536

/-- A node whose agenda is worked off.  What the blocks only read does not change. -/
def Node.settled (n : Node) : Node := { n with ws := settle n.env settleFuel n.ws }

/-- A command's effect on the node, and the settling after it; the queue of commands is not touched. -/
def run (f : Node → Node) (s : State) : Host.Outcome State Fault Refusal := .next { s with node := (f s.node).settled }

/-- An effect on what the blocks change, with what they read. -/
def onWorks (f : Env → Works → Works) (n : Node) : Node := { n with ws := f n.env n.ws }

end Sys2Proof.Machine
end

