-- ==== Sys2Proof/Machine/Image.lean ====
section
/-! DEFINITION. The configuration image (section 11.3, R173, R190, R191): acceptance, the settings with their default
sets, and the entries with their corrections, each counted. -/

namespace Sys2Proof.Machine

open Sys2Proof

/-! ### Default sets (Table 9-1) -/

/-- Default set A. -/
def defaultSetA : Settings :=
  { settle := 300, hold := 4, gather := 5, waitLimit := 30, grace := 90, theta := 3, delta := 5, budget := 3,
    almostEmpty := 2016, prefill := 4032, debounce := 3, dwell := 120, release := 3 }

/-- Default set B. -/
def defaultSetB : Settings :=
  { settle := 800, hold := 8, gather := 8, waitLimit := 45, grace := 120, theta := 5, delta := 5, budget := 5,
    almostEmpty := 4032, prefill := 8064, debounce := 3, dwell := 120, release := 3 }

/-- The set the strap DSET selects: A when low, B when high (R172). -/
def defaultSet (setB : Bool) : Settings := if setB then defaultSetB else defaultSetA

/-- The built-in level settings (Table 8-2), in half-dB units. -/
def builtInLevels : LevelSettings :=
  { full := 200, floor := 140, ceiling := 188, ambient := 130, marginEmergency := 30, marginSafety := 24,
    marginOperational := 20, marginInformation := 16 }

/-! ### Values with the count of their corrections -/

/-- A value, and how many corrections were made in taking it. -/
abbrev Taken (α : Type) := α × Nat

/-- A setting of Table 11-11: all ones takes the default uncounted, out of range takes it counted (R190). -/
def takeSetting (v ones low high default : Nat) : Taken Nat :=
  if v = ones then (default, 0) else if low ≤ v ∧ v ≤ high then (v, 0) else (default, 1)

/-- The settings of Table 11-11. -/
def takeSettings (b : List Byte) (d : Settings) : Taken Settings :=
  let settle := takeSetting (twoAt b 8) 65535 0 2000 d.settle
  let hold := takeSetting (byteAt b 10) 255 0 30 d.hold
  let gather := takeSetting (byteAt b 11) 255 1 30 d.gather
  let waitLimit := takeSetting (byteAt b 12) 255 5 120 d.waitLimit
  let grace := takeSetting (twoAt b 13) 65535 0 600 d.grace
  let theta := takeSetting (byteAt b 15) 255 1 30 d.theta
  let delta := takeSetting (byteAt b 16) 255 1 30 d.delta
  let budget := takeSetting (byteAt b 17) 255 1 15 d.budget
  let almostEmpty := takeSetting (twoAt b 18) 65535 504 8064 d.almostEmpty
  let prefill := takeSetting (twoAt b 20) 65535 504 16128 d.prefill
  let debounce := takeSetting (byteAt b 22) 255 1 10 d.debounce
  let dwell := takeSetting (twoAt b 23) 65535 30 1800 d.dwell
  let release := takeSetting (byteAt b 25) 255 0 10 d.release
  ({ settle := settle.1, hold := hold.1, gather := gather.1, waitLimit := waitLimit.1, grace := grace.1,
     theta := theta.1, delta := delta.1, budget := budget.1, almostEmpty := almostEmpty.1, prefill := prefill.1,
     debounce := debounce.1, dwell := dwell.1, release := release.1 },
   settle.2 + hold.2 + gather.2 + waitLimit.2 + grace.2 + theta.2 + delta.2 + budget.2 + almostEmpty.2 + prefill.2
     + debounce.2 + dwell.2 + release.2)

/-- A zone list: each listed zone 0 or 192..255 is removed, counted (R173, R191). -/
def takeZones (l : List Nat) : Taken (List Nat) :=
  (l.filter (fun z => decide (1 ≤ z ∧ z ≤ 191)), (l.filter (fun z => !decide (1 ≤ z ∧ z ≤ 191))).length)

/-- A count of list slots, cut to its maximum, counted when cut (R191). -/
def takeCount (n limit : Nat) : Taken Nat := if n ≤ limit then (n, 0) else (limit, 1)

/-- The numbers of the bytes from place `i` on. -/
def numbersAt (b : List Byte) (i n : Nat) : List Nat := (List.range n).map (fun k => byteAt b (i + k))

/-- The zone selector bits; 3 is none (Table 11-13). -/
def takeSelector (k : Nat) : Option Selector :=
  match k / 4 % 4 with
  | 0 => some .face
  | 1 => some .faceConcourse
  | 2 => some .concourse
  | _ => none

/-- A delay or announcement entry of five bytes (Table 11-13, R173, R191). -/
def takeEntry (b : List Byte) (i : Nat) : Taken Entry :=
  let k := byteAt b i
  let gap := byteAt b (i + 4) % 64
  let base : Entry :=
    { template := none, cls := Cls.ofBits (k / 16), sel := (takeSelector k).getD .face, reps := byteAt b (i + 4) / 64, gap := gap }
  if k < 128 then (base, 0)
  else if (takeSelector k).isSome ∧ 2 ≤ gap ∧ gap ≤ 60 then ({ base with template := some (byteAt b (i + 3)) }, 0)
  else (base, 1)

/-- A ladder position of five bytes: `none` when no step is present, `some none` when a present step is removed for its
selector or gap (R191). -/
def takeStep (b : List Byte) (i : Nat) : Option (Option LadderStep) :=
  let k := byteAt b i
  let gap := byteAt b (i + 4) % 64
  if k < 128 then none
  else
    match takeSelector k with
    | none => some none
    | some sel =>
      if 2 ≤ gap ∧ gap ≤ 60 then
        some (some { kind := if k / 64 % 2 = 1 then .onArrival else .timeBased (twoAt b (i + 1)),
                     template := byteAt b (i + 3), cls := Cls.ofBits (k / 16), sel := sel,
                     reps := byteAt b (i + 4) / 64, gap := gap })
      else some none

/-- The tests of R32 in image order: `least` is the lead of the last TIME-BASED step kept, `seen` whether an ON-ARRIVAL
step has been kept.  A step that fails is removed, the following ones move up, and it is counted. -/
def checkSteps (departure : Bool) : Option Nat → Bool → List (Option LadderStep) → Taken (List (Option LadderStep))
  | _, _, [] => ([], 0)
  | least, seen, none :: rest =>
    let r := checkSteps departure least seen rest
    (none :: r.1, r.2)
  | least, seen, some s :: rest =>
    match s.kind with
    | .timeBased lead =>
      if lead ≤ 7200 ∧ (∀ m ∈ least, lead < m) then
        let r := checkSteps departure (some lead) seen rest
        (some s :: r.1, r.2)
      else
        let r := checkSteps departure least seen rest
        (r.1, r.2 + 1)
    | .onArrival =>
      if departure = false ∧ seen = false then
        let r := checkSteps departure least true rest
        (some s :: r.1, r.2)
      else
        let r := checkSteps departure least seen rest
        (r.1, r.2 + 1)

/-- The six positions of a ladder from place `i` on, then its delay entry (Table 11-12, R32, R191). -/
def takeLadder (b : List Byte) (i : Nat) (departure : Bool) : Taken Ladder :=
  let raw := (List.range 6).map (fun k => takeStep b (i + 5 * k))
  let kept := raw.filterMap (fun r => match r with | none => some none | some none => none | some (some s) => some (some s))
  let steps := checkSteps departure none false kept
  let delay := takeEntry b (i + 30)
  ({ steps := steps.1, delay := delay.1 }, (raw.length - kept.length) + steps.2 + delay.2)

/-- A face position of 105 bytes (Table 11-12, R16, R191); `named` holds the numbers of lower positions. -/
def takeFace (b : List Byte) (i : Nat) (named : List Nat) : Taken (Option FaceCfg) :=
  let number := byteAt b i
  if number = 0 then (none, 0)
  else if 64 < number ∨ number ∈ named then (none, 1)
  else
    let length := byteAt b (i + 1)
    let badLength := length = 0 ∨ 16 < length
    let zoneCount := takeCount (byteAt b (i + 2)) 4
    let zones := takeZones (numbersAt b (i + 3) zoneCount.1)
    let concourseCount := takeCount (byteAt b (i + 7)) 12
    let concourse := takeZones (numbersAt b (i + 8) concourseCount.1)
    let arrival := takeLadder b (i + 20) false
    let departure := takeLadder b (i + 55) true
    let unscheduled := takeEntry b (i + 90)
    let cancellation := takeEntry b (i + 95)
    let alteration := takeEntry b (i + 100)
    (some { number := number, length := if badLength then 16 else length, zones := zones.1, concourse := concourse.1,
            arrival := arrival.1, departure := departure.1, unscheduled := unscheduled.1,
            cancellation := cancellation.1, alteration := alteration.1 },
     (if badLength then 1 else 0) + zoneCount.2 + zones.2 + concourseCount.2 + concourse.2 + arrival.2 + departure.2
       + unscheduled.2 + cancellation.2 + alteration.2)

/-- The face positions in image order. -/
def takeFaces (b : List Byte) : List Nat → List Nat → Taken (List (Option FaceCfg))
  | _, [] => ([], 0)
  | named, i :: rest =>
    let f := takeFace b i named
    let r := takeFaces b (match f.1 with | some c => c.number :: named | none => named) rest
    (f.1 :: r.1, f.2 + r.2)

/-- A level field: out of its range it takes its built-in default, counted (R161, R191). -/
def takeLevelField (v low high default : Nat) : Taken Nat := if low ≤ v ∧ v ≤ high then (v, 0) else (default, 1)

/-- The joint check of P_z, floor_z and ceiling_z (R161). -/
def levelsConsistent (l : LevelSettings) : Bool :=
  decide (l.ceiling ≤ l.full ∧ l.full ≤ l.floor + 127 ∧ l.floor ≤ l.ceiling)

/-- The level settings of a zone output entry (Table 11-14, R161). -/
def takeLevel (b : List Byte) (i : Nat) : Taken LevelSettings :=
  let d := builtInLevels
  let full := takeLevelField (twoAt b (i + 1)) 120 280 d.full
  let floor := takeLevelField (twoAt b (i + 3)) 40 280 d.floor
  let ceiling := takeLevelField (twoAt b (i + 5)) 40 280 d.ceiling
  let ambient := takeLevelField (twoAt b (i + 7)) 40 240 d.ambient
  let m0 := takeLevelField (byteAt b (i + 9)) 0 60 d.marginEmergency
  let m1 := takeLevelField (byteAt b (i + 10)) 0 60 d.marginSafety
  let m2 := takeLevelField (byteAt b (i + 11)) 0 60 d.marginOperational
  let m3 := takeLevelField (byteAt b (i + 12)) 0 60 d.marginInformation
  let l : LevelSettings :=
    { full := full.1, floor := floor.1, ceiling := ceiling.1, ambient := ambient.1, marginEmergency := m0.1,
      marginSafety := m1.1, marginOperational := m2.1, marginInformation := m3.1 }
  let n := full.2 + floor.2 + ceiling.2 + ambient.2 + m0.2 + m1.2 + m2.2 + m3.2
  if levelsConsistent l then (l, n)
  else
    ({ l with full := d.full, floor := d.floor, ceiling := d.ceiling },
     n + (if l.full = d.full then 0 else 1) + (if l.floor = d.floor then 0 else 1) + (if l.ceiling = d.ceiling then 0 else 1))

/-- The zone outputs in image order (Table 11-14, R106, R191); `named` holds the zones of lower outputs. -/
def takeOutputs (b : List Byte) : List Nat → List Nat → Taken (List (Option OutputCfg))
  | _, [] => ([], 0)
  | named, i :: rest =>
    let zone := byteAt b i
    if zone = 0 then
      let r := takeOutputs b named rest
      (none :: r.1, r.2)
    else if 191 < zone ∨ zone ∈ named then
      let r := takeOutputs b named rest
      (none :: r.1, r.2 + 1)
    else
      let l := takeLevel b i
      let r := takeOutputs b (zone :: named) rest
      (some { zone := zone, level := l.1 } :: r.1, l.2 + r.2)

/-- A trigger entry of 21 bytes (Table 11-15, R173, R191). -/
def takeTrigger (b : List Byte) (i : Nat) : Taken TriggerCfg :=
  let k := byteAt b i
  let gap := byteAt b (i + 2)
  let present := 128 ≤ k
  let gapOk := 2 ≤ gap ∧ gap ≤ 60
  let required := takeCount (byteAt b (i + 3)) 16
  let optional := takeCount (byteAt b (i + 4)) (16 - required.1)
  let req := takeZones (numbersAt b (i + 5) required.1)
  let opt := takeZones (numbersAt b (i + 5 + required.1) optional.1)
  ({ template := if present ∧ gapOk then some (byteAt b (i + 1)) else none, cls := Cls.ofBits (k / 32), gap := gap,
     required := req.1, optional := opt.1 },
   (if present ∧ ¬ gapOk then 1 else 0) + required.2 + optional.2 + req.2 + opt.2)

/-- The two bits of template `t` in the template map (section 11.3). -/
def mapBits (b : List Byte) (t : Nat) : Nat := byteAt b (593 + t / 4) / 4 ^ (3 - t % 4) % 4

/-- The template map: 01 is provided; 10 and 11 are not provided and counted (R191). -/
def takeTemplateMap (b : List Byte) : Taken (List Bool) :=
  ((List.range 256).map (fun t => decide (mapBits b t = 1)), ((List.range 256).filter (fun t => decide (2 ≤ mapBits b t))).length)

/-- The report mask, bits 7..5 of byte 26 (R190). -/
def takeMask (b : List Byte) : ReportMask :=
  let k := byteAt b 26
  { normal := decide (k / 128 = 1), afterStart := decide (k / 64 % 2 = 1), neverStarted := decide (k / 32 % 2 = 1) }

/-- An image is accepted when the memory answers throughout and identifier, format, length and check agree (R190). -/
def imageAccepted (b : List Byte) : Bool :=
  decide (661 ≤ b.length ∧ byteAt b 0 = 0x4E ∧ byteAt b 1 = 0x42 ∧ byteAt b 2 = 0x36 ∧ byteAt b 3 = 0x34 ∧ twoAt b 4 = 1
    ∧ twoAt b 6 = 661 ∧ twoAt b 657 * 65536 + twoAt b 659 = crc32 (b.take 657))

/-- The configuration of an accepted image and the count of corrected fields (R173, R191). -/
def takeImage (b : List Byte) (setB : Bool) : Taken Loaded :=
  let settings := takeSettings b (defaultSet setB)
  let faces := takeFaces b [] [27, 132, 237, 342]
  let outputs := takeOutputs b [] [447, 460, 473, 486, 499, 512, 525, 538]
  let t0 := takeTrigger b 551
  let t1 := takeTrigger b 572
  let map := takeTemplateMap b
  ({ settings := settings.1, positions := faces.1, outputs := outputs.1, triggers := [t0.1, t1.1], templateMap := map.1,
     mask := takeMask b },
   settings.2 + faces.2 + outputs.2 + t0.2 + t1.2 + map.2)

/-- SAFE configuration (R173). -/
def safeConfiguration (setB : Bool) : Loaded :=
  { settings := defaultSet setB, positions := [none, none, none, none],
    outputs := [none, none, none, none, none, none, none, none], triggers := [], templateMap := [],
    mask := { normal := true, afterStart := true, neverStarted := true } }

/-- What the read of the configuration memory yields: the configuration, the count of corrections, and whether it is
SAFE configuration (R172, R190). -/
def loadConfiguration (image : Option (List Byte)) (setB : Bool) : Loaded × Nat × Bool :=
  match image with
  | some b => if imageAccepted b then ((takeImage b setB).1, (takeImage b setB).2, false) else (safeConfiguration setB, 0, true)
  | none => (safeConfiguration setB, 0, true)

end Sys2Proof.Machine
end

