-- ==== Sys2Proof/Machine/Participation.lean ====
section
/-! DEFINITION. The Start and Participation Controller (chapter 9): start reset, straps, the configuration image, the
entries to LISTEN, ACTIVE, QUIET and ISOLATED, the isolation PROFILE, and service reset. -/

namespace Sys2Proof.Machine

open Sys2Proof

/-! ### Start (R172, R174, R179) -/

/-- START_RESET (R179): every block takes its start reset state; the timebase and the input pins stand (log 7). -/
def startReset (n : Node) : Node := { env := Env.reset n.env.now n.env.pins, ws := Works.reset }

/-- RESET_RELEASE (R172): the straps are sampled; node number 0 holds the node in START. -/
def resetReleased (node : Nat) (setB : Bool) (n : Node) : Node :=
  if n.env.part.state = .start ∧ n.env.part.phase = .resetAsserted then
    let number := node % 64
    let part :=
      { n.env.part with node := number, setB := setB, phase := if number = 0 then .heldByNodeZero else .readingImage }
    { n with env := { n.env with part := part } }
  else n

/-- The face records, with the presence levels of the inputs (R16). -/
def buildFaces (cfg : Loaded) (pres : List Bool) : List (Option FaceRec) :=
  (List.range 4).map (fun i =>
    ((cfg.positions[i]?).join).map (fun f => { cfg := f, presence := levelAt pres i, debounce := none, current := none }))

/-- A zone record in IDLE (R106, R125). -/
def buildZone (zflt : List Bool) (zone : Nat) (outputs : List Nat) : ZoneRec :=
  { zone := zone, outputs := outputs, state := .idle, holder := none, waiting := [], fault := lineFaultOf zflt outputs,
    settle := none, hold := none }

/-- The configured outputs, each with its index. -/
def configuredOutputs (cfg : Loaded) : List (Nat × OutputCfg) :=
  (List.range 8).filterMap (fun i => ((cfg.outputs[i]?).join).map (fun o => (i, o)))

/-- The zone records (R106): one for each configured output, or the safe zone's alone. -/
def buildZones (cfg : Loaded) (safe : Bool) (node : Nat) (zflt : List Bool) : List ZoneRec :=
  if safe then [buildZone zflt (191 + node) (List.range 8)]
  else (configuredOutputs cfg).map (fun x => buildZone zflt x.2.zone [x.1])

/-- The level entries (R153). -/
def buildLevels (cfg : Loaded) (safe : Bool) (node : Nat) (now : Instant) : List LevelEntry :=
  if safe then [buildLevel now (191 + node) 0 builtInLevels]
  else (configuredOutputs cfg).map (fun x => buildLevel now x.2.zone x.1 x.2.level)

/-- Entry to LISTEN (R171, R175): the PROFILE with the request flag is queued and the LISTEN timer starts. -/
def enterListen (n : Node) : Node :=
  let part := { n.env.part with state := .listen, listenTimer := some (n.env.now + sec 2), isolationTimer := none }
  let env := { n.env with part := part }
  { env := env, ws := n.ws.hand env (profileFrame env n.ws true) .listenProfile }

/-- CONFIG_IMAGE_TAKEN (R172 to R175, R180, R182): the blocks build their working state and the node enters LISTEN. -/
def imageTaken (image : Option (List Byte)) (n : Node) : Node :=
  if n.env.part.state = .start ∧ n.env.part.phase = .readingImage then
    let e := n.env
    let loaded := loadConfiguration image e.part.setB
    let cfg := loaded.1
    let safe := loaded.2.2
    let part := { e.part with state := .listen, safe := safe, cfg := cfg }
    let env := { e with part := part, faces := buildFaces cfg e.pins.pres }
    let recs := buildZones cfg safe e.part.node e.pins.zflt
    let ws : Works :=
      { n.ws with
        zones := { n.ws.zones with recs := recs }, levels := buildLevels cfg safe e.part.node e.now,
        flash := { n.ws.flash with streams := n.ws.flash.streams.map (fun s => { s with budget := cfg.settings.budget }) } }
    let ws := (ws.bumpBy .correctedFields loaded.2.1).faultEvent env (fun f =>
      recs.foldl FaultSet.followLine { f with clockUnknown := true, safeConfig := safe })
    enterListen { env := env, ws := ws }
  else n

/-! ### LISTEN, ACTIVE, QUIET (R175, R176) -/

/-- The participation state is changed. -/
def Node.setState (s : PState) (n : Node) : Node := { n with env := { n.env with part := { n.env.part with state := s } } }

/-- LISTEN_TIMER_EXPIRY (R175): the node enters ACTIVE, and the Job Table looks for a dispatch. -/
def listenExpires (n : Node) : Node :=
  if n.env.part.state = .listen ∧ n.env.part.listenTimer.isSome then
    let part := { n.env.part with state := .active, listenTimer := none }
    { env := { n.env with part := part }, ws := n.ws.post .dispatch }
  else n

/-- QUIET taken (R69, R176). -/
def quietTaken (n : Node) : Node :=
  if n.env.part.state = .active then
    let m := n.setState .quiet
    { m with ws := (m.ws.quietJobs m.env).post .dispatch }
  else n

/-- WAKE taken (R176). -/
def wakeTaken (n : Node) : Node :=
  if n.env.part.state = .quiet then
    let m := n.setState .active
    { m with ws := m.ws.post .dispatch }
  else n

/-! ### ISOLATED (R128, R151, R177, R183) -/

/-- Entry to ISOLATED (R177): queue and FIFO emptied, trunks and remote grants dropped, remote holders removed, the
isolation timer started.  The unit's drops and leaves come before the arbiter's removals, and the zone rounds that jobs go
on to from TRUNK after them (log 43). -/
def enterIsolated (n : Node) : Node :=
  let part := { n.env.part with state := .isolated, listenTimer := none, isolationTimer := some (n.env.now + sec 10) }
  let env := { n.env with part := part }
  let ws : Works := { n.ws with line := n.ws.line.emptyQueue.emptyFifo }
  { env := env, ws := (ws.isolateTrunks env).isolateZones env }

/-- ISOLATION_TIMER_EXPIRY (R171, R177): one isolation PROFILE is queued where none is, and the timer restarts. -/
def isolationExpires (n : Node) : Node :=
  if n.env.part.state = .isolated ∧ n.env.part.isolationTimer.isSome then
    let part := { n.env.part with isolationTimer := some (n.env.now + sec 10) }
    let env := { n.env with part := part }
    { env := env,
      ws := if n.ws.line.hasIsolationProfile then n.ws else n.ws.hand env (profileFrame env n.ws false) .isolationProfile }
  else n

/-- The echo of the isolation PROFILE ends ISOLATED (R177, R183): ISOLATED-recovered, then LISTEN. -/
def isolationEnds (n : Node) : Node :=
  if n.env.part.state = .isolated then
    let m := n.setState .listen
    enterListen { m with ws := m.ws.faultEvent m.env (fun f => { f with isolatedRecovered := true }) }
  else n

/-- The echo of the PROFILE of an entry to LISTEN removes ISOLATED-recovered; through a new isolation it stays (R183). -/
def recoveryHeard (n : Node) : Node :=
  if n.env.part.state = .isolated then n
  else { n with ws := n.ws.faultEvent n.env (fun f => { f with isolatedRecovered := false }) }

/-! ### Service reset (R178) -/

/-- Step 2 of R178: the release frames, unless the node is ISOLATED. -/
def Works.handReleases (e : Env) (w : Works) : Works :=
  if e.part.state = .isolated then w
  else w.handAll e (revokeFrames e (resetRevocations e w.zones.recs) ++ resetLeaves e w ++ resetFrees e w)

/-- What the Call Table and the Face Monitor keep through a service reset (R1, R16). -/
def Env.serviceReset (e : Env) : Env :=
  { e with calls := List.replicate 32 none, faces := e.faces.map (fun f => f.map (fun r => { r with current := none })) }

/-- Every counter becomes 0 (R186). -/
def Works.clearCounters (w : Works) : Works :=
  { w with report := { w.report with counters := List.replicate 16 0 } }

/-- A service reset (R178), taken in every state but START. -/
def serviceReset (n : Node) : Node :=
  if n.env.part.state = .start then n
  else
    let e := n.env
    let ws : Works := { n.ws with line := n.ws.line.emptyQueue.emptyFifo }
    let ws := ws.handReleases e
    { env := e.serviceReset, ws := (((ws.resetJobs).resetAudio).resetZones e).freeOwnTrunks e |>.clearCounters }

end Sys2Proof.Machine
end

