-- ==== Sys2Proof/Machine/LineCmds.lean ====
section
/-! DEFINITION. The Line Interface (chapter 9): sending, the outcome of own frames, receiving and filtering, echoes, and
the taking of frames from the receive FIFO by the blocks that own them. -/

namespace Sys2Proof.Machine

open Sys2Proof

/-! ### Sending (R164 to R166) -/

/-- A frame of this node is in transmission. -/
def Line.sending (l : Line) : Option TxFrame := l.tx.find? (·.sending)

/-- A frame passes arbitration against the fields of the frames started with it: no rival's is numerically lower (R164).
An equal field is lost to nobody (log 52). -/
def Frame.passesArbitration (f : Frame) (rivals : List Nat) : Bool := rivals.all (fun r => decide (f.arbitration ≤ r))

/-- FRAME_START (R164): the head of the queue is started; when it passes arbitration it is in transmission. -/
def frameStarts (rivals : List Nat) (n : Node) : Node :=
  let l := n.ws.line
  match l.tx with
  | [] => n
  | head :: rest =>
    if n.env.part.state ≠ .start ∧ l.echo.isNone ∧ l.sending.isNone ∧ head.frame.passesArbitration rivals then
      let line := { l with tx := { head with sending := true } :: rest }
      { n with ws := { n.ws with line := line } }
    else n

/-- The check of a frame is compared (R165): a good frame resets the spoil run; a bad one is spoiled while the run is
below 16, and counted. -/
def Works.compareCheck (good : Bool) (w : Works) : Works :=
  if good then
    let line := { w.line with spoilRun := 0, spoilSlot := false }
    { w with line := line }
  else
    let line :=
      if w.line.spoilRun < 16 then { w.line with spoilRun := w.line.spoilRun + 1, spoilSlot := true }
      else { w.line with spoilSlot := false }
    { w with line := line }.bump .spoils

/-- The frame in transmission leaves the queue. -/
def Line.dropSent (l : Line) : Line := { l with tx := l.tx.filter (fun t => !t.sending) }

/-- A frame that leaves the queue when it is spoiled (R166). -/
def TxFrame.lostIfSpoiled (t : TxFrame) : Bool := t.doomed || t.purpose = .isolationProfile

/-- The frame in transmission is back in the queue at its place, or lost (R166). -/
def Line.requeue (l : Line) (t : TxFrame) : Line :=
  if t.lostIfSpoiled then l.dropSent else { l with tx := l.tx.map (fun x => { x with sending := false }) }

/-- The own-spoil count after a spoil: it decreases in LISTEN, ACTIVE and QUIET (R166). -/
def spoilsLeft (s : PState) (count : Nat) : Nat :=
  match s with
  | .listen | .active | .quiet => count - 1
  | .start | .isolated => count

/-- OWN_FRAME_SPOILED (R165, R166): the frame stays queued or is lost, and the own-spoil count decreases; at 0 the node
enters ISOLATED (R177). -/
def ownFrameSpoiled (checkAgreed : Bool) (n : Node) : Node :=
  match n.ws.line.sending with
  | none => n
  | some t =>
    let ws := n.ws.compareCheck checkAgreed
    let ws := if checkAgreed then ws.bump .spoils else ws
    let left := spoilsLeft n.env.part.state ws.line.ownSpoils
    let line := { ws.line.requeue t with ownSpoils := left }
    let m : Node := { n with ws := { ws with line := line } }
    if takesAsks n.env.part.state ∧ left = 0 then enterIsolated m else m

/-- OWN_FRAME_SENT (R166): the frame leaves the queue, the own-spoil count is reloaded, and the echo takes its place
behind the frames already received. -/
def ownFrameSent (checkAgreed : Bool) (n : Node) : Node :=
  match n.ws.line.sending with
  | none => n
  | some t =>
    if checkAgreed = false ∧ n.ws.line.spoilRun < 16 then n
    else
      let ws := n.ws.compareCheck checkAgreed
      let line :=
        { ws.line.dropSent with
          ownSpoils := 8, echo := some { frame := t.frame, purpose := t.purpose, ahead := ws.line.rx.length } }
      { n with ws := { ws with line := line } }

/-! ### Receiving (R168, R169) -/

/-- A zone of a list has a zone record here. -/
def homesAny (w : Works) (zones : List Nat) : Bool := zones.any w.homes

/-- A frame is of interest (R3, R168). -/
def ofInterest (e : Env) (w : Works) (f : Frame) : Bool :=
  match f.payload with
  | .time _ _ | .control _ | .profile _ | .seize _ _ _ | .free _ _ => true
  | .call b => e.serves b.face || (slotOf e b.id).isSome
  | .announce _ | .statusQuery | .zoneAnswer _ _ | .zoneRevoke _ => f.dest = e.part.node
  | .zoneAsk _ _ _ zones => homesAny w zones
  | .zoneLeave _ zones => homesAny w zones
  | .jobReport _ | .fault _ | .status _ => false

/-- The recorded alternation bit a frame is tested against; none for the kinds that are not (R169). -/
def recordedBit (p : Peer) : Payload → Option Bool
  | .announce _ => p.annBit
  | .control _ => p.controlBit
  | .zoneAsk _ _ _ _ => p.askBit
  | _ => none

/-- A frame's alternation bit is recorded (R169). -/
def recordBit (alt : Bool) (k : Payload) (p : Peer) : Peer :=
  match k with
  | .announce _ => { p with annBit := some alt }
  | .control _ => { p with controlBit := some alt }
  | .zoneAsk _ _ _ _ => { p with askBit := some alt }
  | _ => p

/-- The peer table entry of a node. -/
def Env.peer (e : Env) (node : Nat) : Peer := if node = 0 then Peer.reset else e.peers.getD (node - 1) Peer.reset

/-- A change of the peer table entry of a node. -/
def Env.modPeer (node : Nat) (f : Peer → Peer) (e : Env) : Env :=
  if node = 0 then e else { e with peers := e.peers.modify (node - 1) f }

/-- A frame is a duplicate (R169). -/
def isDuplicate (e : Env) (f : Frame) : Bool := recordedBit (e.peer f.source) f.payload = some f.alt

/-- Tests 3 to 6 of R168 on a well-formed frame. -/
def filterFrame (f : Frame) (n : Node) : Node :=
  if f.dest ≠ 0 ∧ f.dest ≠ n.env.part.node then n
  else if ofInterest n.env n.ws f = false then n
  else if isDuplicate n.env f then n.bump .duplicatesDropped
  else if rxCapacity ≤ n.ws.line.rx.length then n.bump .receiveOverruns
  else
    let line := { n.ws.line with rx := n.ws.line.rx ++ [f] }
    { env := n.env.modPeer f.source (recordBit f.alt f.payload), ws := { n.ws with line := line } }

/-- A good, unspoiled frame that is no echo of this node (R168, R188). -/
def goodFrame (bytes : List Byte) (n : Node) : Node :=
  if byteAt bytes 0 % 64 = n.env.part.node then n
  else
    match decodeFrame bytes with
    | none => n.bump .malformedFrames
    | some f => filterFrame f n

/-- The bytes are those of this node's frame in transmission (R168, test 1). -/
def isOwnFrame (l : Line) (bytes : List Byte) : Bool :=
  match l.sending with
  | some t => encodeFrame t.frame = bytes
  | none => false

/-- FRAME_RECEIVED (R165, R168): the check is compared, then a good unspoiled frame is decoded and filtered.  The line is
ignored in START; the bytes of the frame in transmission are its end. -/
def frameReceived (bytes : List Byte) (spoiled : Bool) (n : Node) : Node :=
  if n.env.part.state = .start then n
  else if isOwnFrame n.ws.line bytes then
    if spoiled then ownFrameSpoiled true n else ownFrameSent true n
  else
    let m := { n with ws := n.ws.compareCheck (frameGood bytes) }
    if frameGood bytes = false then m
    else if spoiled then m.bump .spoils
    else goodFrame bytes m

/-! ### Echoes (R166) -/

/-- What the delivery of an echo does (R131, R136, R141, R166, R177, R183). -/
def echoEffect (x : EchoPlace) (n : Node) : Node :=
  match x.frame.payload, x.purpose with
  | .seize trunk tag hold, _ => { n with ws := n.ws.seizeEchoed n.env x.frame trunk tag hold }
  | .free trunk _, _ => { n with ws := n.ws.applyFree n.env x.frame.source trunk }
  | .zoneAsk tag _ _ _, .ask serial => { n with ws := n.ws.startAnswers n.env tag serial }
  | .profile _, .isolationProfile => isolationEnds n
  | .profile _, .listenProfile => recoveryHeard n
  | _, _ => n

/-- The echo in the echo place is delivered when no received frame stands before it and it is of the kind asked for; the
place empties (R166). -/
def deliverEcho (wanted : EchoPlace → Bool) (n : Node) : Node :=
  match n.ws.line.echo with
  | none => n
  | some x =>
    if x.ahead = 0 ∧ wanted x then
      let line := { n.ws.line with echo := none }
      echoEffect x { n with ws := { n.ws with line := line } }
    else n

/-- A PROFILE echo. -/
def EchoPlace.isProfile (x : EchoPlace) : Bool := match x.frame.payload with | .profile _ => true | _ => false

/-- A SEIZE echo. -/
def EchoPlace.isSeize (x : EchoPlace) : Bool := match x.frame.payload with | .seize _ _ _ => true | _ => false

/-- A ZONE-ASK echo. -/
def EchoPlace.isZoneAsk (x : EchoPlace) : Bool := match x.frame.payload with | .zoneAsk _ _ _ _ => true | _ => false

/-! ### Taking a frame from the FIFO (R168) -/

/-- The echo stands before every frame of the FIFO. -/
def Line.echoFirst (l : Line) : Bool := match l.echo with | some x => x.ahead = 0 | none => false

/-- The head of the FIFO is taken: its place frees, and an echo behind it moves up. -/
def Line.takeFrame (l : Line) (rest : List Frame) : Line :=
  { l with rx := rest, echo := l.echo.map (fun x => { x with ahead := x.ahead - 1 }) }

/-- The frame at the head of the FIFO is taken by the block that `act` speaks for; a frame of another kind stays, and so
does one behind an echo. -/
def takeFrom (act : Frame → Option (Node → Node)) (n : Node) : Node :=
  match n.ws.line.rx with
  | [] => n
  | f :: rest =>
    if n.ws.line.echoFirst then n
    else
      match act f with
      | none => n
      | some g => g { n with ws := { n.ws with line := n.ws.line.takeFrame rest } }

/-- TIME (R29). -/
def actTime (f : Frame) : Option (Node → Node) :=
  match f.payload with
  | .time day second => some (takeTime day second)
  | _ => none

/-- CALL (R4). -/
def actCall (f : Frame) : Option (Node → Node) :=
  match f.payload with
  | .call b => some (takeCall b)
  | _ => none

/-- ANNOUNCE (R50). -/
def actAnnounce (f : Frame) : Option (Node → Node) :=
  match f.payload with
  | .announce a => some (onWorks (fun e w => w.announce e f a))
  | _ => none

/-- NODE-CONTROL QUIET (R176). -/
def actQuiet (f : Frame) : Option (Node → Node) :=
  match f.payload with
  | .control .quiet => some quietTaken
  | _ => none

/-- NODE-CONTROL WAKE (R176). -/
def actWake (f : Frame) : Option (Node → Node) :=
  match f.payload with
  | .control .wake => some wakeTaken
  | _ => none

/-- NODE-CONTROL SERVICE-RESET (R176, R178): taken when addressed to this node, ignored when addressed to every node. -/
def actServiceReset (f : Frame) : Option (Node → Node) :=
  match f.payload with
  | .control .serviceReset => some (fun n => if f.dest = n.env.part.node then serviceReset n else n)
  | _ => none

/-- NODE-CONTROL REPLAY-LAST (R52, R176). -/
def actReplayLast (f : Frame) : Option (Node → Node) :=
  match f.payload with
  | .control (.replayLast face) => some (onWorks (fun e w => w.replayLast e face))
  | _ => none

/-- STATUS-QUERY (R185). -/
def actStatusQuery (f : Frame) : Option (Node → Node) :=
  match f.payload with
  | .statusQuery => some (onWorks (fun e w => w.hand e (statusFrame e w f.source) .plain))
  | _ => none

/-- SEIZE of another node (R131). -/
def actSeize (f : Frame) : Option (Node → Node) :=
  match f.payload with
  | .seize trunk tag hold => some (onWorks (fun e w => w.applySeize e f.source trunk tag hold))
  | _ => none

/-- FREE of another node (R131). -/
def actFree (f : Frame) : Option (Node → Node) :=
  match f.payload with
  | .free trunk _ => some (onWorks (fun e w => w.applyFree e f.source trunk))
  | _ => none

/-- ZONE-ASK of another node (R108). -/
def actZoneAsk (f : Frame) : Option (Node → Node) :=
  match f.payload with
  | .zoneAsk tag trunk duration zones => some (onWorks (fun e w => w.askFrame e f tag trunk duration zones))
  | _ => none

/-- ZONE-LEAVE of another node (R119). -/
def actZoneLeave (f : Frame) : Option (Node → Node) :=
  match f.payload with
  | .zoneLeave tag zones => some (onWorks (fun e w => w.leaveFrame e f tag zones))
  | _ => none

/-- ZONE-ANSWER (R141). -/
def actZoneAnswer (f : Frame) : Option (Node → Node) :=
  match f.payload with
  | .zoneAnswer tag verdicts => some (onWorks (fun e w => w.answerFrame e f tag verdicts))
  | _ => none

/-- ZONE-REVOKE (R148). -/
def actZoneRevoke (f : Frame) : Option (Node → Node) :=
  match f.payload with
  | .zoneRevoke entries =>
    some (onWorks (fun e w => entries.foldl (fun w x => w.takeRevocation e x.tag x.zone x.reason) w))
  | _ => none

/-! ### PROFILE (R170, R171) -/

/-- The map after a PROFILE of node `source` that lists these zones (R170, steps 1 and 2). -/
def claimZones (source : Nat) (zones : List Nat) (homes : List (Option Nat)) : List (Option Nat) :=
  zones.foldl (fun m z => m.set (z - 1) (some source))
    ((List.range homes.length).map (fun i =>
      match (homes[i]?).join with
      | some n => if n = source ∧ !zones.contains (i + 1) then none else some n
      | none => none))

/-- The zones a PROFILE claims that the map records at another node, or that have a zone record here (R170): one conflict
for each such zone and PROFILE, also when both hold (log 48). -/
def conflicts (e : Env) (w : Works) (source : Nat) (zones : List Nat) : Nat :=
  ((firstPlaces zones).filter (fun z =>
    w.homes z || (match e.homeOf z with | some n => decide (n ≠ source) | none => false))).length

/-- What a PROFILE leaves in the peer table (R169, R170). -/
def heardProfile (b : ProfileBody) (p : Peer) : Peer :=
  let p := { p with profile := some { kind := b.kind, zones := b.zones } }
  if b.request then { p with annBit := none, controlBit := none, askBit := none } else p

/-- A PROFILE of another node is taken (R169 to R171): map, peer table, and the answer to its request flag. -/
def takeProfile (source : Nat) (b : ProfileBody) (n : Node) : Node :=
  let ws := n.ws.bumpBy .zoneHomeConflicts (conflicts n.env n.ws source b.zones)
  let env := { n.env.modPeer source (heardProfile b) with homes := claimZones source b.zones n.env.homes }
  { env := env,
    ws := if b.request ∧ ws.line.hasProfile = false then ws.hand env (profileFrame env ws false) .plain else ws }

/-- PROFILE of another node (R170). -/
def actProfile (f : Frame) : Option (Node → Node) :=
  match f.payload with
  | .profile b => some (takeProfile f.source b)
  | _ => none

end Sys2Proof.Machine
end

