-- ==== Sys2Proof/Machine/Ambient.lean ====
section
/-! DEFINITION. The meanings of the level commands, one definition for each command: its effect on the node, and the
settling of the work it causes. -/

namespace Sys2Proof.Machine

open Sys2Proof

/-- AMBIENT_READING_CYCLE (R154, R157 to R159). -/
def execAmbientReadingCycle (readings : List (Option Nat)) (s : State) : Host.Outcome State Fault Refusal := run (ambientReadings readings) s

/-- SILENCE_TIMER_EXPIRY (R155, R158). -/
def execSilenceTimerExpiry (zone : Nat) (s : State) : Host.Outcome State Fault Refusal := run (silenceExpires zone) s

/-- RELEASE_TIMER_EXPIRY (R156, R160). -/
def execReleaseTimerExpiry (zone : Nat) (s : State) : Host.Outcome State Fault Refusal := run (releaseExpires zone) s

end Sys2Proof.Machine
end

