-- ==== Sys2Proof/Machine/Announce.lean ====
section
/-! DEFINITION. The meanings of the job commands, one definition for each command: its effect on the node, and the
settling of the work it causes. -/

namespace Sys2Proof.Machine

open Sys2Proof

/-- An edge of a trigger input (R51): the pin takes its level, and outside START the Job Table follows it.  An input that
stands at the level already has no edge (log 4). -/
def triggerEdge (input : Nat) (level : Bool) (n : Node) : Node :=
  if levelAt n.env.pins.trig input = level then n
  else
    let env := { n.env with pins := { n.env.pins with trig := n.env.pins.trig.set input level } }
    { env := env,
      ws :=
        if env.part.state = .start then n.ws
        else if level then n.ws.triggerRises env input
        else n.ws.triggerFalls env input }

/-- ANNOUNCE (R50). -/
def execAnnounce (s : State) : Host.Outcome State Fault Refusal := run (takeFrom actAnnounce) s

/-- REPLAY_LAST (R52). -/
def execReplayLast (s : State) : Host.Outcome State Fault Refusal := run (takeFrom actReplayLast) s

/-- TRIGGER_RISING_EDGE (R51). -/
def execTriggerRisingEdge (input : Nat) (s : State) : Host.Outcome State Fault Refusal := run (triggerEdge input true) s

/-- TRIGGER_FALLING_EDGE (R51, R65). -/
def execTriggerFallingEdge (input : Nat) (s : State) : Host.Outcome State Fault Refusal := run (triggerEdge input false) s

/-- RETRY_TIMER_EXPIRY (R66). -/
def execRetryTimerExpiry (tag : Nat) (s : State) : Host.Outcome State Fault Refusal := run (onWorks (fun e w => w.retryExpires e tag)) s

/-- GAP_TIMER_EXPIRY (R65). -/
def execGapTimerExpiry (tag : Nat) (s : State) : Host.Outcome State Fault Refusal := run (onWorks (fun e w => w.gapExpires e tag)) s

end Sys2Proof.Machine
end

