-- ==== Sys2Proof/Machine/Arbiter.lean ====
section
/-! DEFINITION. The meanings of the zone commands, one definition for each command: its effect on the node, and the
settling of the work it causes. -/

namespace Sys2Proof.Machine

open Sys2Proof

/-- ZONE_ASK (R108, R118). -/
def execZoneAsk (s : State) : Host.Outcome State Fault Refusal := run (takeFrom actZoneAsk) s

/-- ZONE_LEAVE (R119). -/
def execZoneLeave (s : State) : Host.Outcome State Fault Refusal := run (takeFrom actZoneLeave) s

/-- SETTLE_TIMER_EXPIRY (R117). -/
def execSettleTimerExpiry (zone : Nat) (s : State) : Host.Outcome State Fault Refusal := run (onWorks (fun e w => w.settleExpires e zone)) s

/-- HOLD_TIMER_EXPIRY (R121). -/
def execHoldTimerExpiry (zone : Nat) (s : State) : Host.Outcome State Fault Refusal := run (onWorks (fun e w => w.holdExpires e zone)) s

/-- EXPIRY_TIMER_EXPIRY (R122). -/
def execExpiryTimerExpiry (zone : Nat) (s : State) : Host.Outcome State Fault Refusal := run (onWorks (fun e w => w.holderExpires e zone)) s

/-- WAIT_TIMER_EXPIRY (R123). -/
def execWaitTimerExpiry (zone node tag : Nat) (s : State) : Host.Outcome State Fault Refusal := run (onWorks (fun e w => w.waitExpires e zone node tag)) s

/-- LINE_FAULT_INPUT_CHANGE (R125). -/
def execLineFaultInputChange (output : Nat) (level : Bool) (s : State) : Host.Outcome State Fault Refusal := run (lineFaultChanges output level) s

end Sys2Proof.Machine
end

