-- ==== Sys2Proof/Machine/Fetch.lean ====
section
/-! DEFINITION. The meanings of the flash and playout commands, one definition for each command: its effect on the node, and the
settling of the work it causes. -/

namespace Sys2Proof.Machine

open Sys2Proof

/-- The audio read on the port completes; none for a no-response read. -/
def Works.audioComplete (e : Env) (data : Option (List Byte)) (w : Works) : Works :=
  match w.flash.port with
  | some (.audio n) => w.audioRead e n data
  | _ => w

/-- The read on the port, of whatever kind, meets no response (R87). -/
def Works.noResponse (e : Env) (w : Works) : Works :=
  match w.flash.port with
  | none => w
  | some (.audio _) => w.audioComplete e none
  | some (.bind _ (.template _) _) => w.templateRead e none
  | some (.bind _ (.directory _) _) => w.directoryRead e none

/-- TEMPLATE_READ_COMPLETE (R75, R79). -/
def execTemplateReadComplete (data : List Byte) (s : State) : Host.Outcome State Fault Refusal := run (onWorks (fun e w => w.templateRead e (some data))) s

/-- DIRECTORY_READ_COMPLETE (R74, R78, R79). -/
def execDirectoryReadComplete (data : List Byte) (s : State) : Host.Outcome State Fault Refusal := run (onWorks (fun e w => w.directoryRead e (some data))) s

/-- AUDIO_READ_COMPLETE (R76, R83, R85, R86, R88, R89). -/
def execAudioReadComplete (data : List Byte) (s : State) : Host.Outcome State Fault Refusal := run (onWorks (fun e w => w.audioComplete e (some data))) s

/-- FLASH_READ_NO_RESPONSE (R78, R79, R87). -/
def execFlashReadNoResponse (s : State) : Host.Outcome State Fault Refusal := run (onWorks (fun e w => w.noResponse e)) s

/-- SAMPLE_PERIOD (R95 to R101). -/
def execSamplePeriod (carrier : List Bool) (s : State) : Host.Outcome State Fault Refusal := run (samplePeriod carrier) s

/-- GAP_SILENCE_END (R95, R101). -/
def execGapSilenceEnd (channel : Nat) (s : State) : Host.Outcome State Fault Refusal := run (gapSilenceEnds channel) s

/-- UNDERRUN (R99). -/
def execUnderrun (channel : Nat) (s : State) : Host.Outcome State Fault Refusal := run (underrunReached channel) s

/-- STALL (R100). -/
def execStall (channel : Nat) (s : State) : Host.Outcome State Fault Refusal := run (stallReached channel) s

end Sys2Proof.Machine
end

