-- ==== Sys2Proof/Machine/Gather.lean ====
section
/-! DEFINITION. The meanings of the trunk and gathering commands, one definition for each command: its effect on the node, and the
settling of the work it causes. -/

namespace Sys2Proof.Machine

open Sys2Proof

/-- SEIZE (R131). -/
def execSeize (s : State) : Host.Outcome State Fault Refusal := run (takeFrom actSeize) s

/-- FREE (R131, R137). -/
def execFree (s : State) : Host.Outcome State Fault Refusal := run (takeFrom actFree) s

/-- ZONE_ANSWER (R141, R142, R147). -/
def execZoneAnswer (s : State) : Host.Outcome State Fault Refusal := run (takeFrom actZoneAnswer) s

/-- ZONE_REVOKE (R148, R149). -/
def execZoneRevoke (s : State) : Host.Outcome State Fault Refusal := run (takeFrom actZoneRevoke) s

/-- TRUNK_VIEW_EXPIRY (R132, R137). -/
def execTrunkViewExpiry (trunk : Nat) (s : State) : Host.Outcome State Fault Refusal := run (onWorks (fun e w => w.viewExpires e trunk)) s

/-- TRUNK_WAIT_TIMER_EXPIRY (R137). -/
def execTrunkWaitTimerExpiry (tag : Nat) (s : State) : Host.Outcome State Fault Refusal := run (onWorks (fun e w => w.trunkWaitEnds e tag)) s

/-- ANSWER_TIMER_EXPIRY (R141). -/
def execAnswerTimerExpiry (tag home : Nat) (s : State) : Host.Outcome State Fault Refusal := run (onWorks (fun e w => w.answerExpires e tag home)) s

/-- GATHER_TIMER_EXPIRY (R144, R145). -/
def execGatherTimerExpiry (tag : Nat) (s : State) : Host.Outcome State Fault Refusal := run (onWorks (fun e w => w.gatherExpires e tag)) s

/-- READY_TIMER_EXPIRY (R143). -/
def execReadyTimerExpiry (tag : Nat) (s : State) : Host.Outcome State Fault Refusal := run (onWorks (fun e w => w.readyExpires e tag)) s

/-- START_TIMER_EXPIRY (R144, R145). -/
def execStartTimerExpiry (tag : Nat) (s : State) : Host.Outcome State Fault Refusal := run (onWorks (fun e w => w.startExpires e tag)) s

/-- BACKOFF_TIMER_EXPIRY (R145, R146). -/
def execBackoffTimerExpiry (tag : Nat) (s : State) : Host.Outcome State Fault Refusal := run (onWorks (fun e w => w.backoffExpires e tag)) s

end Sys2Proof.Machine
end

