-- ==== Sys2Proof/Machine/Reset.lean ====
section
/-! DEFINITION. The meanings of the reset and participation commands, one definition for each command: its effect on the node, and the
settling of the work it causes. -/

namespace Sys2Proof.Machine

open Sys2Proof

/-- START_RESET (R179). -/
def execStartReset (s : State) : Host.Outcome State Fault Refusal := run startReset s

/-- RESET_RELEASE (R172). -/
def execResetRelease (node : Nat) (dset : Bool) (s : State) : Host.Outcome State Fault Refusal := run (resetReleased node dset) s

/-- CONFIG_IMAGE_TAKEN (R172 to R175, R190, R191). -/
def execConfigImageTaken (image : Option (List Byte)) (s : State) : Host.Outcome State Fault Refusal := run (imageTaken image) s

/-- SRV_PULSE (R178). -/
def execSrvPulse (s : State) : Host.Outcome State Fault Refusal := run serviceReset s

/-- LISTEN_TIMER_EXPIRY (R175). -/
def execListenTimerExpiry (s : State) : Host.Outcome State Fault Refusal := run listenExpires s

/-- ISOLATION_TIMER_EXPIRY (R171, R177). -/
def execIsolationTimerExpiry (s : State) : Host.Outcome State Fault Refusal := run isolationExpires s

/-- QUIET (R69, R176). -/
def execQuiet (s : State) : Host.Outcome State Fault Refusal := run (takeFrom actQuiet) s

/-- WAKE (R176). -/
def execWake (s : State) : Host.Outcome State Fault Refusal := run (takeFrom actWake) s

/-- SERVICE_RESET (R176, R178). -/
def execServiceReset (s : State) : Host.Outcome State Fault Refusal := run (takeFrom actServiceReset) s

end Sys2Proof.Machine
end

