-- ==== Sys2Proof/Machine/Service.lean ====
section
/-! DEFINITION. The meanings of the clock, call and face commands, one definition for each command: its effect on the node, and the
settling of the work it causes. -/

namespace Sys2Proof.Machine

open Sys2Proof

/-- TIME (R29, R33). -/
def execTime (s : State) : Host.Outcome State Fault Refusal := run (takeFrom actTime) s

/-- CALL (R4). -/
def execCall (s : State) : Host.Outcome State Fault Refusal := run (takeFrom actCall) s

/-- TICK (R28, R33). -/
def execTick (s : State) : Host.Outcome State Fault Refusal := run tickHappens s

/-- RETENTION_TIMER_EXPIRY (R12). -/
def execRetentionTimerExpiry (slot : Nat) (s : State) : Host.Outcome State Fault Refusal := run (retentionExpires slot) s

/-- DWELL_TIMER_EXPIRY (R13). -/
def execDwellTimerExpiry (slot : Nat) (s : State) : Host.Outcome State Fault Refusal := run (dwellExpires slot) s

/-- PRESENCE_INPUT_CHANGE (R17). -/
def execPresenceInputChange (position : Nat) (level : Bool) (s : State) : Host.Outcome State Fault Refusal := run (presenceChanges position level) s

/-- DEBOUNCE_TIMER_EXPIRY (R17, R19, R20). -/
def execDebounceTimerExpiry (position : Nat) (s : State) : Host.Outcome State Fault Refusal := run (debounceExpires position) s

end Sys2Proof.Machine
end

