-- ==== Sys2Proof/Machine/Station.lean ====
section
/-! DEFINITION. The meanings of the station line commands, one definition for each command: its effect on the node, and the
settling of the work it causes. -/

namespace Sys2Proof.Machine

open Sys2Proof

/-- FRAME_START (R164). -/
def execFrameStart (rivals : List Nat) (s : State) : Host.Outcome State Fault Refusal := run (frameStarts rivals) s

/-- OWN_FRAME_SPOILED (R165, R166, R177). -/
def execOwnFrameSpoiled (checkAgreed : Bool) (s : State) : Host.Outcome State Fault Refusal := run (ownFrameSpoiled checkAgreed) s

/-- OWN_FRAME_SENT (R165, R166). -/
def execOwnFrameSent (checkAgreed : Bool) (s : State) : Host.Outcome State Fault Refusal := run (ownFrameSent checkAgreed) s

/-- FRAME_RECEIVED (R165, R168, R169, R187, R188). -/
def execFrameReceived (bytes : List Byte) (spoiled : Bool) (s : State) : Host.Outcome State Fault Refusal := run (frameReceived bytes spoiled) s

/-- ECHO (R166). -/
def execEcho (s : State) : Host.Outcome State Fault Refusal := run (deliverEcho (fun _ => true)) s

/-- SEIZE_ECHO (R131, R136). -/
def execSeizeEcho (s : State) : Host.Outcome State Fault Refusal := run (deliverEcho EchoPlace.isSeize) s

/-- ZONE_ASK_ECHO (R141). -/
def execZoneAskEcho (s : State) : Host.Outcome State Fault Refusal := run (deliverEcho EchoPlace.isZoneAsk) s

/-- ISOLATION_PROFILE_ECHO (R177, R183). -/
def execIsolationProfileEcho (s : State) : Host.Outcome State Fault Refusal := run (deliverEcho (fun x => x.isProfile && x.purpose = .isolationProfile)) s

/-- PROFILE_ECHO (R183). -/
def execProfileEcho (s : State) : Host.Outcome State Fault Refusal := run (deliverEcho (fun x => x.isProfile && x.purpose = .listenProfile)) s

/-- STATUS_QUERY (R185). -/
def execStatusQuery (s : State) : Host.Outcome State Fault Refusal := run (takeFrom actStatusQuery) s

/-- PROFILE (R169 to R171). -/
def execProfile (s : State) : Host.Outcome State Fault Refusal := run (takeFrom actProfile) s

end Sys2Proof.Machine
end

