-- ==== Sys2Proof/Machine/Dispatch.lean ====
section
/-! DEFINITION. The meaning of every command: one arm for each constructor of Instr. -/

namespace Sys2Proof.Machine

open Sys2Proof

/-- The effect of a command on everything but the queue. -/
def exec (i : Instr) (s : State) : Host.Outcome State Fault Refusal :=
  match i with
  | .startReset => Sys2Proof.Machine.execStartReset s
  | .resetRelease node dset => Sys2Proof.Machine.execResetRelease node dset s
  | .configImageTaken image => Sys2Proof.Machine.execConfigImageTaken image s
  | .srvPulse => Sys2Proof.Machine.execSrvPulse s
  | .listenTimerExpiry => Sys2Proof.Machine.execListenTimerExpiry s
  | .isolationTimerExpiry => Sys2Proof.Machine.execIsolationTimerExpiry s
  | .frameStart rivals => Sys2Proof.Machine.execFrameStart rivals s
  | .ownFrameSpoiled checkAgreed => Sys2Proof.Machine.execOwnFrameSpoiled checkAgreed s
  | .ownFrameSent checkAgreed => Sys2Proof.Machine.execOwnFrameSent checkAgreed s
  | .frameReceived bytes spoiled => Sys2Proof.Machine.execFrameReceived bytes spoiled s
  | .echo => Sys2Proof.Machine.execEcho s
  | .seizeEcho => Sys2Proof.Machine.execSeizeEcho s
  | .zoneAskEcho => Sys2Proof.Machine.execZoneAskEcho s
  | .isolationProfileEcho => Sys2Proof.Machine.execIsolationProfileEcho s
  | .profileEcho => Sys2Proof.Machine.execProfileEcho s
  | .time => Sys2Proof.Machine.execTime s
  | .call => Sys2Proof.Machine.execCall s
  | .announce => Sys2Proof.Machine.execAnnounce s
  | .quiet => Sys2Proof.Machine.execQuiet s
  | .wake => Sys2Proof.Machine.execWake s
  | .serviceReset => Sys2Proof.Machine.execServiceReset s
  | .replayLast => Sys2Proof.Machine.execReplayLast s
  | .statusQuery => Sys2Proof.Machine.execStatusQuery s
  | .profile => Sys2Proof.Machine.execProfile s
  | .seize => Sys2Proof.Machine.execSeize s
  | .free => Sys2Proof.Machine.execFree s
  | .zoneAsk => Sys2Proof.Machine.execZoneAsk s
  | .zoneLeave => Sys2Proof.Machine.execZoneLeave s
  | .zoneAnswer => Sys2Proof.Machine.execZoneAnswer s
  | .zoneRevoke => Sys2Proof.Machine.execZoneRevoke s
  | .tick => Sys2Proof.Machine.execTick s
  | .retentionTimerExpiry slot => Sys2Proof.Machine.execRetentionTimerExpiry slot s
  | .dwellTimerExpiry slot => Sys2Proof.Machine.execDwellTimerExpiry slot s
  | .presenceInputChange position level => Sys2Proof.Machine.execPresenceInputChange position level s
  | .debounceTimerExpiry position => Sys2Proof.Machine.execDebounceTimerExpiry position s
  | .triggerRisingEdge input => Sys2Proof.Machine.execTriggerRisingEdge input s
  | .triggerFallingEdge input => Sys2Proof.Machine.execTriggerFallingEdge input s
  | .retryTimerExpiry tag => Sys2Proof.Machine.execRetryTimerExpiry tag s
  | .gapTimerExpiry tag => Sys2Proof.Machine.execGapTimerExpiry tag s
  | .templateReadComplete data => Sys2Proof.Machine.execTemplateReadComplete data s
  | .directoryReadComplete data => Sys2Proof.Machine.execDirectoryReadComplete data s
  | .audioReadComplete data => Sys2Proof.Machine.execAudioReadComplete data s
  | .flashReadNoResponse => Sys2Proof.Machine.execFlashReadNoResponse s
  | .samplePeriod carrier => Sys2Proof.Machine.execSamplePeriod carrier s
  | .gapSilenceEnd channel => Sys2Proof.Machine.execGapSilenceEnd channel s
  | .underrun channel => Sys2Proof.Machine.execUnderrun channel s
  | .stall channel => Sys2Proof.Machine.execStall channel s
  | .settleTimerExpiry zone => Sys2Proof.Machine.execSettleTimerExpiry zone s
  | .holdTimerExpiry zone => Sys2Proof.Machine.execHoldTimerExpiry zone s
  | .expiryTimerExpiry zone => Sys2Proof.Machine.execExpiryTimerExpiry zone s
  | .waitTimerExpiry zone node tag => Sys2Proof.Machine.execWaitTimerExpiry zone node tag s
  | .lineFaultInputChange output level => Sys2Proof.Machine.execLineFaultInputChange output level s
  | .trunkViewExpiry trunk => Sys2Proof.Machine.execTrunkViewExpiry trunk s
  | .trunkWaitTimerExpiry tag => Sys2Proof.Machine.execTrunkWaitTimerExpiry tag s
  | .answerTimerExpiry tag home => Sys2Proof.Machine.execAnswerTimerExpiry tag home s
  | .gatherTimerExpiry tag => Sys2Proof.Machine.execGatherTimerExpiry tag s
  | .readyTimerExpiry tag => Sys2Proof.Machine.execReadyTimerExpiry tag s
  | .startTimerExpiry tag => Sys2Proof.Machine.execStartTimerExpiry tag s
  | .backoffTimerExpiry tag => Sys2Proof.Machine.execBackoffTimerExpiry tag s
  | .ambientReadingCycle readings => Sys2Proof.Machine.execAmbientReadingCycle readings s
  | .silenceTimerExpiry zone => Sys2Proof.Machine.execSilenceTimerExpiry zone s
  | .releaseTimerExpiry zone => Sys2Proof.Machine.execReleaseTimerExpiry zone s

end Sys2Proof.Machine
end

