-- ==== Sys2Proof/Machine/Idle.lean ====
section
/-! DEFINITION. What the block does on an empty queue (log 1): a timer that runs out now becomes the command the opcode
table names for it, or one sample period of the local timebase passes. -/

namespace Sys2Proof.Machine

open Sys2Proof

/-- A command when a timer runs out now. -/
def dueAt (now : Instant) (t : Option Instant) (c : Instr) : List Instr := if t = some now then [c] else []

/-- The positions of a list, each with its item. -/
def withPlaces {α : Type} (l : List α) : List (Nat × α) := l.zipIdx.map (fun x => (x.2, x.1))

/-- The timers of the participation controller and the clock that run out. -/
def dueOfNode (e : Env) : List Instr :=
  dueAt e.now e.clock.nextTick .tick ++ dueAt e.now e.part.listenTimer .listenTimerExpiry
    ++ dueAt e.now e.part.isolationTimer .isolationTimerExpiry

/-- The timers of calls and faces that run out. -/
def dueOfCalls (e : Env) : List Instr :=
  ((withPlaces e.calls).map (fun x =>
    match x.2 with
    | some c => dueAt e.now c.retention (.retentionTimerExpiry x.1) ++ dueAt e.now c.dwell (.dwellTimerExpiry x.1)
    | none => [])).flatten
  ++ ((withPlaces e.faces).map (fun x =>
    match x.2 with
    | some f => dueAt e.now f.debounce (.debounceTimerExpiry x.1)
    | none => [])).flatten

/-- The timers of one job that run out. -/
def dueOfJob (now : Instant) (r : JobRec) : List Instr :=
  let g := r.gathering
  dueAt now r.retryTimer (.retryTimerExpiry r.tag) ++ dueAt now r.gapTimer (.gapTimerExpiry r.tag)
    ++ dueAt now g.trunkWait (.trunkWaitTimerExpiry r.tag)
    ++ (g.answers.map (fun a => dueAt now (some a.2) (.answerTimerExpiry r.tag a.1))).flatten
    ++ dueAt now g.gather (.gatherTimerExpiry r.tag) ++ dueAt now g.ready (.readyTimerExpiry r.tag)
    ++ dueAt now g.startTimer (.startTimerExpiry r.tag) ++ dueAt now g.backoff (.backoffTimerExpiry r.tag)

/-- The timers of one zone that run out. -/
def dueOfZone (now : Instant) (z : ZoneRec) : List Instr :=
  dueAt now z.settle (.settleTimerExpiry z.zone) ++ dueAt now z.hold (.holdTimerExpiry z.zone)
    ++ dueAt now (z.holder.map (·.expiry)) (.expiryTimerExpiry z.zone)
    ++ (z.waiting.map (fun x => dueAt now (some x.wait) (.waitTimerExpiry z.zone x.node x.tag))).flatten

/-- The timers of the trunk view that run out. -/
def dueOfTrunks (now : Instant) (l : List (Option TrunkHold)) : List Instr :=
  ((withPlaces l).map (fun x => dueAt now (x.2.map (·.expiry)) (.trunkViewExpiry x.1))).flatten

/-- The timers of one level entry that run out. -/
def dueOfLevel (now : Instant) (l : LevelEntry) : List Instr :=
  dueAt now (some l.silence) (.silenceTimerExpiry l.zone) ++ dueAt now l.release (.releaseTimerExpiry l.zone)

/-- The commands of the timers that run out at the present instant, in the order the model takes them (log 1). -/
def dueCommands (n : Node) : List Instr :=
  dueOfNode n.env ++ dueOfCalls n.env ++ (n.ws.jobs.recs.map (dueOfJob n.env.now)).flatten
    ++ (n.ws.zones.recs.map (dueOfZone n.env.now)).flatten ++ dueOfTrunks n.env.now n.ws.trunks
    ++ (n.ws.levels.map (dueOfLevel n.env.now)).flatten

/-- A channel that plays has its sample period, with the carrier inputs as they stand. -/
def duePeriod (n : Node) : List Instr := if n.ws.channels.any Channel.plays then [.samplePeriod n.env.pins.carrier] else []

/-- The timebase advances by one sample period. -/
def Node.later (n : Node) : Node := { n with env := { n.env with now := n.env.now + 1 } }

/-- What the block does on an empty queue (log 1): the command of a timer that runs out now is queued, one at a step, so
that a timer which that command stops or starts again does not run out with it; when none does, one sample period
passes. -/
def idle (s : State) : State :=
  match dueCommands s.node with
  | c :: _ => { s with pending := s.pending ++ [c] }
  | [] => { pending := s.pending ++ duePeriod s.node, node := s.node.later }

end Sys2Proof.Machine
end

