-- ==== Sys2Proof/Machine/Step.lean ====
section
/-! DEFINITION. One step of the machine: the command at the front of the queue is taken; on an empty queue a timer that
runs out now has its command queued, or one sample period of the local timebase passes. -/

namespace Sys2Proof.Machine

open Sys2Proof

/-- One step: `exec` of the front command on the state with the queue's rest, or the idle step (log 1). -/
def step (s : State) : Host.Outcome State Fault Refusal :=
  match s.pending with
  | [] => .next (idle s)
  | c :: rest => exec c { s with pending := rest }

/-- The state with the command that a word spells at the front of its queue; no word spells one (log 8). -/
def State.withFetchWord (s : State) (nbits w : Nat) : State :=
  match Sys2Proof.decodeTableWord nbits w with
  | some c => { s with pending := c :: s.pending }
  | none => s

end Sys2Proof.Machine
end

