-- ==== Sys2Proof/Safety.lean ====
section
/-! DEFINITION. What a well-behaved state of the block is: the bounds, orders and uniqueness the rules state of its
tables; what a frame that the tables of chapter 11 allow is; and the words in which the statements name a state. -/

namespace Sys2Proof.Machine

open Sys2Proof

/-! ### Words of the statements -/

/-- What the blocks only read while they settle a command. -/
abbrev State.env (s : State) : Env := s.node.env

/-- What the blocks change. -/
abbrev State.ws (s : State) : Works := s.node.ws

/-- The state with other works. -/
def State.withWs (s : State) (w : Works) : State := { s with node := { s.node with ws := w } }

/-- The state with other things read. -/
def State.withEnv (s : State) (e : Env) : State := { s with node := { s.node with env := e } }

/-- No block has work left over from an earlier command. -/
abbrev State.rested (s : State) : Prop := s.node.ws.agenda = []

/-- The frame `f` is the next one the receive FIFO passes, with `rest` behind it (R168). -/
abbrev State.passes (s : State) (f : Frame) (rest : List Frame) : Prop :=
  s.node.ws.line.rx = f :: rest ∧ s.node.ws.line.echoFirst = false

/-- The works once the head of the receive FIFO has been taken. -/
def State.taken (s : State) (rest : List Frame) : Works := { s.node.ws with line := s.node.ws.line.takeFrame rest }

/-- The echo `x` is delivered next (R166). -/
abbrev State.echoDue (s : State) (x : EchoPlace) : Prop := s.node.ws.line.echo = some x ∧ x.ahead = 0

/-- The works once the echo place has emptied. -/
def State.echoGone (s : State) : Works := { s.node.ws with line := { s.node.ws.line with echo := none } }

/-- LISTEN, ACTIVE or QUIET: the node is on the line, and frames handed over are queued (R167). -/
abbrev Env.onLine (e : Env) : Prop := e.part.state = .listen ∨ e.part.state = .active ∨ e.part.state = .quiet

/-- The transmit queue has a place (R167). -/
abbrev Works.room (w : Works) : Prop := w.line.tx.length < txCapacity

/-- A plain frame queued at its place by class and enqueue order (R167). -/
def queuedAmong (f : Frame) (l : List TxFrame) : List TxFrame :=
  enqueueFrame { frame := f, purpose := .plain, sending := false, doomed := false } l

/-- A job that holds no zone of this node and fails would have its JOB-REPORT queued: the node is on the line, the mask
sends the group, and the queue has room for the job's leave, its FREE and its report (R150, R167, R184). -/
abbrev State.reportable (s : State) (r : JobRec) : Prop :=
  s.node.env.onLine ∧ s.node.env.part.cfg.mask.afterStart = true ∧ s.node.ws.line.tx.length + 3 ≤ txCapacity
    ∧ ∀ g ∈ r.gathering.grants, g.home ≠ .local

/-- A JOB-REPORT of this node for a job tag stands in the queue with this completion code. -/
def State.reports (s : State) (tag : Nat) (code : Code) : Prop :=
  ∃ x ∈ s.node.ws.line.tx, ∃ b : ReportBody,
    x.frame = mkFrame s.node.env .information 0 (.jobReport b) ∧ b.tag = tag ∧ b.code = code

/-- The Job Table can make a dispatch when a record is eligible: ACTIVE or QUIET, and a channel free (R56). -/
abbrev canDispatch (e : Env) (w : Works) : Prop :=
  (e.part.state = .active ∨ e.part.state = .quiet) ∧ (w.channelFree 0 = true ∨ w.channelFree 1 = true)

/-! ### Bounds and orders of the tables -/

/-- The clock's values are in range (R27). -/
abbrev Clock.wf (c : Clock) : Prop := c.day < 65536 ∧ c.second < 86400

/-- A TIME frame carries a day and a second in range (Table 11-3). -/
def Frame.timeInRange (f : Frame) : Prop :=
  match f.payload with
  | .time day second => day < 65536 ∧ second < 86400
  | _ => True

/-- The queue is ordered by class: no frame of a worse class stands ahead of one of a better class (R167). -/
abbrev classOrdered (l : List TxFrame) : Prop := l.Pairwise (fun a b => a.frame.cls.rank ≤ b.frame.cls.rank)

/-- The transmit queue holds at most 12 frames, in class order (R167). -/
abbrev Line.queueWf (l : Line) : Prop := l.tx.length ≤ txCapacity ∧ classOrdered l.tx

/-- The receive FIFO has 8 places, the spoil run is at most 16 and the own-spoil count at most 8 (R164, R168). -/
abbrev Line.countsWf (l : Line) : Prop := l.rx.length ≤ rxCapacity ∧ l.spoilRun ≤ 16 ∧ l.ownSpoils ≤ 8

/-- There are 16 counters, each 0..65,535 (R186), and the sequence number is 0..255 (R182). -/
abbrev ReportUnit.wf (r : ReportUnit) : Prop := r.counters.length = 16 ∧ (∀ v ∈ r.counters, v ≤ 65535) ∧ r.seq ≤ 255

/-- A zone record as its state allows (Table 6-2): a holder in SETTLING and SPEAKING and in no other state, a settle timer in
SETTLING and a hold timer in HOLDING, and a waiting list of at most 6, empty without a holder. -/
abbrev ZoneRec.wf (z : ZoneRec) : Prop :=
  ((z.state = .settling ∨ z.state = .speaking) ↔ z.holder.isSome = true) ∧ (z.state = .settling → z.settle.isSome = true)
    ∧ (z.state = .holding → z.hold.isSome = true) ∧ (z.holder = none → z.waiting = []) ∧ z.waiting.length ≤ waitingCapacity

/-- The settle timer runs in SETTLING and the hold timer in HOLDING, each in no other state (Table 6-2). -/
abbrev ZoneRec.timersExact (z : ZoneRec) : Prop :=
  (z.settle.isSome = true ↔ z.state = .settling) ∧ (z.hold.isSome = true ↔ z.state = .holding)

/-- One waiting entry stands before another: better class, or the same class and the earlier arrival (R115). -/
abbrev Waiter.before (a b : Waiter) : Prop := a.cls.rank < b.cls.rank ∨ (a.cls.rank = b.cls.rank ∧ a.order < b.order)

/-- Requester node and job tag of the holder and of each waiting entry. -/
def ZoneRec.askers (z : ZoneRec) : List (Nat × Nat) :=
  (z.holder.map (fun h => (h.node, h.tag))).toList ++ z.waiting.map (fun x => (x.node, x.tag))

/-- The laws of the waiting list: class order and within a class arrival order (R115), no arrival order past the last one
given (R106), and no requester pair more than once among holder and waiting entries (R110). -/
abbrev ZoneRec.queueLaws (z : ZoneRec) (arrivals : Nat) : Prop :=
  z.waiting.Pairwise Waiter.before ∧ (∀ x ∈ z.waiting, x.order ≤ arrivals) ∧ z.askers.Nodup

/-- Every zone record keeps Table 6-2 and the laws of its waiting list. -/
abbrev ZoneTable.wf (t : ZoneTable) : Prop := ∀ z ∈ t.recs, (z.wf ∧ z.timersExact) ∧ z.queueLaws t.arrivals

/-- The Job Table holds at most 16 records, with tags 0..255 of which no two are equal (R47, R48). -/
abbrev JobTable.wf (j : JobTable) : Prop :=
  j.recs.length ≤ jobCapacity ∧ (∀ r ∈ j.recs, r.tag ≤ 255) ∧ (j.recs.map (·.tag)).Nodup

/-- A level entry: attenuation 0..63.5 dB, estimate 320..1,920 sixteenths of a dB when present, and a default ambient
20..120 dB (R153, R157, R161, R163). -/
abbrev LevelEntry.wf (l : LevelEntry) : Prop :=
  l.attenuation ≤ 127 ∧ (∀ a ∈ l.estimate, 320 ≤ a ∧ a ≤ 1920) ∧ 40 ≤ l.settings.ambient ∧ l.settings.ambient ≤ 240

/-- Every call id stands in at most one slot (R5). -/
def Env.idsUnique (e : Env) : Prop :=
  ∀ i j c d, e.callAt i = some c → e.callAt j = some d → c.id = d.id → i = j

/-- Every table has the size the spec gives it (R1, R16, R80, R90, R130, R169, R170). -/
abbrev Node.sized (n : Node) : Prop :=
  n.env.calls.length = 32 ∧ n.env.faces.length = 4 ∧ n.env.peers.length = 63 ∧ n.env.homes.length = 254
    ∧ n.ws.channels.length = 2 ∧ n.ws.flash.streams.length = 2 ∧ n.ws.trunks.length = 4

/-! ### What the two resets leave -/

/-- The values the spec gives for start reset: R1, R27, R47, R48, R71, R78, R80, R84, R90, R130, R164, R169, R170, R172,
R180 to R182, R186; and no face, zone or level record, which the node builds as it leaves START (R106, R153, R174). -/
def Node.atStart (n : Node) : Prop :=
  n.env.part.state = .start ∧ n.env.part.phase = .resetAsserted ∧ n.env.part.safe = false
    ∧ n.env.part.listenTimer = none ∧ n.env.part.isolationTimer = none
    ∧ n.env.clock.day = 0 ∧ n.env.clock.second = 0 ∧ n.env.clock.known = false ∧ n.env.clock.nextTick = none
    ∧ n.env.calls = List.replicate 32 none ∧ n.env.faces = [none, none, none, none]
    ∧ n.env.peers = List.replicate 63 { annBit := none, controlBit := none, askBit := none, profile := none }
    ∧ n.env.homes = List.replicate 254 none
    ∧ n.ws.jobs.recs = [] ∧ n.ws.jobs.lastTag = 255 ∧ n.ws.jobs.creation = 0 ∧ n.ws.jobs.triggerJobs = [none, none]
    ∧ n.ws.jobs.lastAired = List.replicate 5 none
    ∧ n.ws.flash.cache = none ∧ n.ws.flash.port = none ∧ n.ws.flash.waiting = [] ∧ n.ws.flash.lastServed = 1
    ∧ n.ws.flash.streams.map (·.state) = [.idle, .idle] ∧ (∀ s ∈ n.ws.flash.streams, s.list = [] ∧ s.inFlight = none)
    ∧ (∀ s ∈ n.ws.flash.streams, s.budget = n.env.part.cfg.settings.budget)
    ∧ n.ws.channels.map (·.state) = [.free, .free]
    ∧ (∀ c ∈ n.ws.channels, c.fifo = [] ∧ c.transmit = none ∧ c.position = none ∧ c.output = 0)
    ∧ n.ws.zones.recs = [] ∧ n.ws.zones.arrivals = 0 ∧ n.ws.levels = [] ∧ n.ws.trunks = [none, none, none, none]
    ∧ n.ws.line.tx = [] ∧ n.ws.line.rx = [] ∧ n.ws.line.echo = none ∧ n.ws.line.spoilRun = 0 ∧ n.ws.line.ownSpoils = 8
    ∧ n.ws.line.askAlt = true
    ∧ n.ws.report.faults = { flashPort := false, safeConfig := false, isolatedRecovered := false, clockUnknown := false,
                             zoneLine := [], sensor := [] }
    ∧ n.ws.report.seq = 0 ∧ n.ws.report.counters = List.replicate 16 0
    ∧ faultOutput n.env n.ws = false

/-- The release frames of a service reset: the ZONE-REVOKE frames, then the ZONE-LEAVE, then the FREE frames (R178). -/
def Node.releases (n : Node) : List Frame :=
  revokeFrames n.env (resetRevocations n.env n.ws.zones.recs) ++ resetLeaves n.env n.ws ++ resetFrees n.env n.ws

/-- The transmit queue after a service reset: a frame in transmission goes to its end, and nothing else of the old queue
is left (R178, step 1); the release frames are queued by class behind it, none while ISOLATED (step 2).  Where they have
room, every holder and waiting entry of another node is revoked RESET (R129), and every in-progress job gives back the
remote zones it wants and the trunk it holds (R152). -/
def Node.releasesQueued (n m : Node) : Prop :=
  let kept := (n.ws.line.tx.filter (·.sending)).map (fun x => { x with doomed := true })
  let queues (f : Frame) : Prop := ∃ x ∈ m.ws.line.tx, x.frame = f
  let revokes (node zone tag : Nat) : Prop :=
    ∃ x ∈ m.ws.line.tx, x.frame.dest = node
      ∧ ∃ entries, x.frame.payload = .zoneRevoke entries ∧ { zone := zone, tag := tag, reason := .reset } ∈ entries
  (n.env.part.state = .isolated → m.ws.line.tx = kept)
    ∧ (n.env.part.state ≠ .isolated → kept.length + n.releases.length ≤ txCapacity →
        m.ws.line.tx = n.releases.foldl (fun l f => queuedAmong f l) kept
        ∧ (∀ z ∈ n.ws.zones.recs, ∀ h, z.holder = some h → h.node ≠ n.env.part.node → revokes h.node z.zone h.tag)
        ∧ (∀ z ∈ n.ws.zones.recs, ∀ x ∈ z.waiting, x.node ≠ n.env.part.node → revokes x.node z.zone x.tag)
        ∧ (∀ r ∈ n.ws.jobs.recs, r.state.inProgress = true →
            (∀ t, r.trunk = some t → queues (mkFrame n.env r.cls 0 (.free t r.tag)))
            ∧ let zones := (r.gathering.grants.filter (fun g => g.home.isRemote && g.wanted)).map (·.zone)
              (zones ≠ [] → queues (mkFrame n.env r.cls 0 (.zoneLeave r.tag zones)))))

/-- What a service reset leaves (R178, Table 9-3). -/
def Node.serviceResetFrom (n m : Node) : Prop :=
  m.env = { n.env with calls := List.replicate 32 none,
                       faces := n.env.faces.map (fun f => f.map (fun r => { r with current := none })) }
    ∧ m.ws.jobs = { n.ws.jobs with recs := [], triggerJobs := [none, none], lastAired := List.replicate 5 none }
    ∧ m.ws.flash.cache = none ∧ m.ws.flash.waiting = [] ∧ m.ws.flash.lastServed = 1
    ∧ m.ws.flash.streams.map (fun s => (s.state, s.inFlight, s.budget)) =
        n.ws.flash.streams.map (fun s => (if s.inFlight.isSome then .ending else .idle, s.inFlight, s.budget))
    ∧ (∀ c ∈ m.ws.channels, c.fifo = [] ∧ c.transmit = none ∧ c.position = none ∧ c.output = 0 ∧ c.played = 0
        ∧ c.underrunTotal = 0 ∧ c.underrunEpisode = none)
    ∧ (∀ x ∈ m.ws.channels.zip m.ws.flash.streams, x.1.state = if x.2.state = .ending then .flushing else .free)
    ∧ (∀ z ∈ m.ws.zones.recs, z.state = .idle ∧ z.holder = none ∧ z.waiting = [])
    ∧ ((n.ws.zones.recs.map (·.zone)).Nodup →
        m.ws.zones.recs.map (fun z => (z.zone, z.outputs, z.fault)) = n.ws.zones.recs.map (fun z => (z.zone, z.outputs, z.fault)))
    ∧ m.ws.zones.arrivals = n.ws.zones.arrivals
    ∧ m.ws.levels = n.ws.levels.map (fun l =>
        match n.ws.zone l.zone with
        | none => l
        | some z =>
          if z.state = .idle then l
          else if n.env.part.cfg.settings.release = 0 then l.openHold
          else { l with hold := .releasing, release := some (n.env.now + sec n.env.part.cfg.settings.release) })
    ∧ m.ws.trunks = n.ws.trunks.map (fun h => h.filter (fun x => x.node ≠ n.env.part.node))
    ∧ m.ws.line = { n.ws.line with
        tx := m.ws.line.tx, rx := [], echo := n.ws.line.echo.map (fun x => { x with ahead := 0 }) }
    ∧ n.releasesQueued m
    ∧ m.ws.report.faults = n.ws.report.faults ∧ m.ws.report.seq = n.ws.report.seq
    ∧ m.ws.report.counters = List.replicate 16 0

/-! ### Frames the tables of chapter 11 allow -/

/-- Numbers that fit a byte. -/
abbrev bytesOk (l : List Nat) : Prop := ∀ b ∈ l, b < 256

/-- Zone numbers of a frame, 1..254. -/
abbrev zonesOk (l : List Nat) : Prop := ∀ z ∈ l, 1 ≤ z ∧ z ≤ 254

/-- Phrase numbers 0..4,095. -/
abbrev phrasesOk (l : List Nat) : Prop := ∀ p ∈ l, p ≤ 4095

/-- A CALL payload in range (Table 11-4); a time is present only where the kind has it. -/
def CallBody.inRange (b : CallBody) : Prop :=
  b.id < 16777216 ∧ b.rev < 256 ∧ b.day < 65536 ∧ 1 ≤ b.face ∧ b.face ≤ 64 ∧ (∀ f ∈ b.prev, 1 ≤ f ∧ f ≤ 64)
    ∧ (∀ t ∈ b.sArr, t ≤ 107999 ∧ b.kind.hasArr = true) ∧ (∀ t ∈ b.sDep, t ≤ 107999 ∧ b.kind.hasDep = true)
    ∧ (∀ d ∈ b.delay, -32768 ≤ d ∧ d ≤ 32767) ∧ b.dest ≤ 4095 ∧ b.origin ≤ 4095 ∧ b.operator ≤ 4095 ∧ b.formation ≤ 16
    ∧ b.points.length ≤ 12 ∧ phrasesOk b.points

/-- The content of an ANNOUNCE payload in range. -/
def Content.inRange : Content → Prop
  | .template t => t < 256
  | .phrases l => 1 ≤ l.length ∧ l.length ≤ 16 ∧ phrasesOk l

/-- A call match in range. -/
def CallMatch.inRange : CallMatch → Prop
  | .exact face id => face ≤ 64 ∧ id < 16777216
  | .firstAfter face second => face ≤ 64 ∧ second ≤ 107999
  | .lastBefore face second => face ≤ 64 ∧ second ≤ 107999

/-- An ANNOUNCE payload in range (Table 11-5). -/
def AnnounceBody.inRange (a : AnnounceBody) : Prop :=
  a.request < 256 ∧ a.content.inRange ∧ (∀ m ∈ a.callMatch, m.inRange) ∧ (∀ t ∈ a.notBefore, t ≤ 107999) ∧ a.reps ≤ 3
    ∧ 2 ≤ a.gap ∧ a.gap ≤ 60 ∧ a.required.length + a.optional.length ≤ 16 ∧ zonesOk a.required ∧ zonesOk a.optional

/-- A verdict in range (Table 11-8). -/
def Verdict.inRange : Verdict → Prop
  | .granted ready _ => ready ≤ 2000
  | .queued position => 1 ≤ position ∧ position ≤ 6
  | .denied _ => True

/-- A PROFILE payload of node `source` in range (Table 11-6). -/
def ProfileBody.inRange (p : ProfileBody) (source : Nat) : Prop :=
  p.node = source ∧ p.revision < 256 ∧ p.trunks < 16 ∧ p.faces.length ≤ 4 ∧ p.zones.length ≤ 8
    ∧ (∀ f ∈ p.faces, 1 ≤ f ∧ f ≤ 64) ∧ zonesOk p.zones

/-- A reference of a JOB-REPORT in range (Table 11-9). -/
def ReportRef.inRange : ReportRef → Prop
  | .call id => id < 16777216
  | .face f => 1 ≤ f ∧ f ≤ 64
  | .console node request => 1 ≤ node ∧ node ≤ 63 ∧ request < 256
  | .input n => n ≤ 1
  | .replay f => f ≤ 64

/-- The content of a JOB-REPORT in range (Table 11-9). -/
def ReportContent.inRange : ReportContent → Prop
  | .template n => n < 256
  | .phrases n => n < 256
  | .none n => n = 0

/-- A JOB-REPORT payload in range (Table 11-9). -/
def ReportBody.inRange (r : ReportBody) : Prop :=
  r.tag < 256 ∧ r.ref.inRange ∧ r.content.inRange ∧ r.airings < 256 ∧ r.zonesAired < 256 ∧ r.remaining < 256

/-- A FAULT payload in range (Table 11-9). -/
def FaultBody.inRange (f : FaultBody) : Prop :=
  f.seq < 256 ∧ f.set.zoneLine.length ≤ 8 ∧ f.set.sensor.length ≤ 8 ∧ bytesOk f.set.zoneLine ∧ bytesOk f.set.sensor

/-- A payload of node `source` as its table allows. -/
def Payload.inRange (source : Nat) : Payload → Prop
  | .time day second => day < 65536 ∧ second < 86400
  | .call b => b.inRange
  | .announce a => a.inRange
  | .control .quiet => True
  | .control .wake => True
  | .control .serviceReset => True
  | .control (.replayLast face) => face ≤ 64
  | .statusQuery => True
  | .profile p => p.inRange source
  | .seize trunk tag hold => trunk ≤ 3 ∧ tag < 256 ∧ hold ≤ 250
  | .free trunk tag => trunk ≤ 3 ∧ tag < 256
  | .zoneAsk tag trunk duration zones =>
    tag < 256 ∧ trunk ≤ 3 ∧ duration ≤ 250 ∧ 1 ≤ zones.length ∧ zones.length ≤ 16 ∧ zonesOk zones
  | .zoneAnswer tag verdicts =>
    tag < 256 ∧ 1 ≤ verdicts.length ∧ verdicts.length ≤ 8 ∧ ∀ v ∈ verdicts, 1 ≤ v.1 ∧ v.1 ≤ 254 ∧ v.2.inRange
  | .zoneRevoke entries =>
    1 ≤ entries.length ∧ entries.length ≤ 16 ∧ ∀ x ∈ entries, 1 ≤ x.zone ∧ x.zone ≤ 254 ∧ x.tag < 256
  | .zoneLeave tag zones => tag < 256 ∧ 1 ≤ zones.length ∧ zones.length ≤ 16 ∧ zonesOk zones
  | .jobReport r => r.inRange
  | .fault f => f.inRange
  | .status s =>
    1 ≤ s.state ∧ s.state ≤ 4 ∧ s.fault.inRange ∧ s.counters.length = 16 ∧ ∀ v ∈ s.counters, v < 65536

/-- A frame as Tables 11-1 to 11-9 allow: source 1..63, destination 0..63, payload in range. -/
def Frame.inRange (f : Frame) : Prop := 1 ≤ f.source ∧ f.source ≤ 63 ∧ f.dest ≤ 63 ∧ f.payload.inRange f.source

end Sys2Proof.Machine
end

