-- ==== Sys2Proof/Certificates/Slice0/Obligations.lean ====
section
/-! DEFINITION. The statements about the block for the provers: how a step takes a command, what each command does, what
each leaves unchanged, and the invariants every step keeps.  Numbers "log n" are notes/assumptions/n.md. -/

open Sys2Proof Sys2Proof.Machine

/-! ### The step -/

/-- The step of a state with the command `c` at the front of its queue is `exec c` on the state with the queue's rest
(00_scope.md section 7.7). -/
def Obligations.StepRunsTheCommandAtTheFront : Prop :=
  ∀ (c : Instr) (rest : List Instr) (s : State), step { s with pending := c :: rest } = exec c { s with pending := rest }

/-- Every command, in every state, ends in a next state, and touches neither the queue nor the timebase. On an empty
queue the command of the first timer that runs out now is queued; when none does, one sample period of the timebase
passes, and SAMPLE_PERIOD is queued when a channel plays; nothing else changes (the model's choice, log 1). -/
def Obligations.EveryCommandAnswersAndIdleLetsTimePass : Prop :=
  (∀ (c : Instr) (s : State), ∃ t, exec c s = .next t ∧ t.pending = s.pending ∧ t.env.now = s.env.now)
  ∧ (∀ (s : State) (c : Instr) (more : List Instr), s.pending = [] → dueCommands s.node = c :: more →
       step s = .next { s with pending := [c] })
  ∧ (∀ s : State, s.pending = [] → dueCommands s.node = [] →
       step s = .next { pending := duePeriod s.node,
                        node := { env := { s.env with now := s.env.now + 1 }, ws := s.ws } })

/-! ### Reset and participation (chapter 9) -/

/-- The machine right after reset, and the machine after START_RESET in any state, have every table and register for which
the spec gives a start reset value at that value: START, clock, call slots, no face, zone or level record, jobs, flash,
streams with their budgets at the reload value of the loaded configuration, channels, trunk view, line, peers and reports;
the queue is empty after reset. That START_RESET leaves queue, pins and timebase, that the SAFE flag is clear, and which
configuration stands loaded, is the model's choice (log 7). -/
def Obligations.StartResetValues : Prop :=
  State.reset.pending = [] ∧ State.reset.node.atStart
    ∧ ∀ s : State, ∃ t, exec .startReset s = .next t ∧ t.node.atStart ∧ t.pending = s.pending ∧ t.env.pins = s.env.pins
        ∧ t.env.now = s.env.now

/-- RESET_RELEASE samples the straps; node number 0 holds the node in START with the FAULT output asserted, a number
1..63 goes on to the image. CONFIG_IMAGE_TAKEN: the node enters LISTEN with its timer at 2 s; CLOCK-UNKNOWN is placed,
and SAFE-CONFIG when the image is refused, which leaves the safe zone alone; the FAULT frame stands ahead of the
PROFILE with the request flag. Of an accepted image, a setting whose bytes are all ones takes the strap-selected default
uncounted, one out of the range of Table 9-1 takes it counted once, and any other is taken as it stands; report mask,
template map and trigger entries are read from their bits and bytes; the corrections of the entries are counted beside them
(which corrections of unused fields count is the model's choice, log 16). Face and output entries are tied to their bytes
through the model's own reading of them, and what is kept of them is in range: face numbers 1..64, face lengths 1..16, zones
1..191, and level settings that agree with one another. -/
def Obligations.StartReadsStrapsAndImage : Prop :=
  (∀ (s : State) (node : Nat) (dset : Bool), s.rested → node ≤ 63 →
     s.env.part.state = .start → s.env.part.phase = .resetAsserted →
     exec (.resetRelease node dset) s = .next (s.withEnv { s.env with part := { s.env.part with
         node := node, setB := dset, phase := if node = 0 then .heldByNodeZero else .readingImage } })
     ∧ (node = 0 → ∀ t, exec (.resetRelease node dset) s = .next t → faultOutput t.env t.ws = true))
  ∧ (∀ (s : State) (image : Option (List Byte)), s.rested →
       s.env.part.state = .start → s.env.part.phase = .readingImage → s.ws.line.tx = [] → s.ws.report.faults = {} →
       ∃ t, exec (.configImageTaken image) s = .next t
         ∧ t.env.part.state = .listen ∧ t.env.part.listenTimer = some (s.env.now + sec 2)
         ∧ t.ws.report.faults.clockUnknown = true ∧ t.ws.report.faults.safeConfig = t.env.part.safe
         ∧ t.ws.line.tx.map (·.frame) =
             [mkFrame t.env .safety 0 (.fault { seq := t.ws.report.seq, set := t.ws.report.faults }), profileFrame t.env t.ws true]
         ∧ (∀ b, image = some b → imageAccepted b = true →
             t.env.part.safe = false ∧ t.env.part.cfg = (takeImage b s.env.part.setB).1
               ∧ (s.ws.report.wf → t.ws.counter .correctedFields =
                   min 65535 (s.ws.counter .correctedFields + (takeImage b s.env.part.setB).2))
               ∧ t.env.faces = buildFaces t.env.part.cfg s.env.pins.pres
               ∧ t.ws.zones.recs.map (·.zone) = (configuredOutputs t.env.part.cfg).map (·.2.zone))
         ∧ ((image = none ∨ ∃ b, image = some b ∧ imageAccepted b = false) →
             t.env.part.safe = true ∧ t.env.part.cfg.settings = defaultSet s.env.part.setB
               ∧ t.ws.zones.recs.map (fun z => (z.zone, z.outputs)) = [(191 + s.env.part.node, [0, 1, 2, 3, 4, 5, 6, 7])]))
  ∧ (∀ (b : List Byte) (setB : Bool),
       let c := (takeImage b setB).1
       let d := defaultSet setB
       -- what is taken, the bytes of Table 11-11, all ones, the range and the default of Table 9-1
       let fields : List (Nat × Nat × Nat × Nat × Nat × Nat) :=
         [(c.settings.settle, twoAt b 8, 65535, 0, 2000, d.settle), (c.settings.hold, byteAt b 10, 255, 0, 30, d.hold),
          (c.settings.gather, byteAt b 11, 255, 1, 30, d.gather), (c.settings.waitLimit, byteAt b 12, 255, 5, 120, d.waitLimit),
          (c.settings.grace, twoAt b 13, 65535, 0, 600, d.grace), (c.settings.theta, byteAt b 15, 255, 1, 30, d.theta),
          (c.settings.delta, byteAt b 16, 255, 1, 30, d.delta), (c.settings.budget, byteAt b 17, 255, 1, 15, d.budget),
          (c.settings.almostEmpty, twoAt b 18, 65535, 504, 8064, d.almostEmpty),
          (c.settings.prefill, twoAt b 20, 65535, 504, 16128, d.prefill),
          (c.settings.debounce, byteAt b 22, 255, 1, 10, d.debounce), (c.settings.dwell, twoAt b 23, 65535, 30, 1800, d.dwell),
          (c.settings.release, byteAt b 25, 255, 0, 10, d.release)]
       (∀ x ∈ fields, x.1 = if x.2.1 = x.2.2.1 ∨ x.2.1 < x.2.2.2.1 ∨ x.2.2.2.2.1 < x.2.1 then x.2.2.2.2.2 else x.2.1)
       ∧ (takeImage b setB).2 =
           (fields.filter (fun x => decide (x.2.1 ≠ x.2.2.1 ∧ (x.2.1 < x.2.2.2.1 ∨ x.2.2.2.2.1 < x.2.1)))).length
             + (takeFaces b [] [27, 132, 237, 342]).2 + (takeOutputs b [] [447, 460, 473, 486, 499, 512, 525, 538]).2
             + (takeTrigger b 551).2 + (takeTrigger b 572).2 + (takeTemplateMap b).2
       -- bits 7 to 5 of byte 26, and two bits of bytes 593..656 for each template
       ∧ c.mask.normal = (byteAt b 26).testBit 7 ∧ c.mask.afterStart = (byteAt b 26).testBit 6
       ∧ c.mask.neverStarted = (byteAt b 26).testBit 5
       ∧ (c.templateMap.length = 256
           ∧ ∀ t, t < 256 → c.templateMap[t]? = some (decide (byteAt b (593 + t / 4) / 2 ^ (6 - 2 * (t % 4)) % 4 = 1)))
       -- Table 11-15, with the counts of a zone list cut to 16 in all and zones outside 1..191 removed
       ∧ (c.triggers.length = 2 ∧ ∀ i t, c.triggers[i]? = some t →
           let at_ := 551 + 21 * i
           let gap := byteAt b (at_ + 2)
           let required := min (byteAt b (at_ + 3)) 16
           let optional := min (byteAt b (at_ + 4)) (16 - required)
           let zones (from_ n : Nat) : List Nat :=
             ((List.range n).map (fun k => byteAt b (from_ + k))).filter (fun z => decide (1 ≤ z ∧ z ≤ 191))
           t.template = (if 128 ≤ byteAt b at_ ∧ 2 ≤ gap ∧ gap ≤ 60 then some (byteAt b (at_ + 1)) else none)
           ∧ t.cls.rank = byteAt b at_ / 32 % 4 ∧ t.gap = gap
           ∧ t.required = zones (at_ + 5) required ∧ t.optional = zones (at_ + 5 + required) optional)
       ∧ (∀ f, some f ∈ c.positions → 1 ≤ f.number ∧ f.number ≤ 64 ∧ 1 ≤ f.length ∧ f.length ≤ 16
           ∧ f.zones.length ≤ 4 ∧ f.concourse.length ≤ 12 ∧ ∀ z ∈ f.zones ++ f.concourse, 1 ≤ z ∧ z ≤ 191)
       ∧ (∀ o, some o ∈ c.outputs → 1 ≤ o.zone ∧ o.zone ≤ 191 ∧ levelsConsistent o.level = true)
       ∧ (∀ t ∈ c.triggers, t.required.length + t.optional.length ≤ 16 ∧ ∀ z ∈ t.required ++ t.optional, 1 ≤ z ∧ z ≤ 191))

/-- LISTEN_TIMER_EXPIRY, QUIET (in ACTIVE) and WAKE (in QUIET) change the participation state and nothing else that the
blocks read; with no job in the table they change nothing of the other blocks but the receive FIFO; QUIET and WAKE taken
in another state change nothing but the FIFO. QUIET suppresses: a record of class
OPERATIONAL or INFORMATION that waits in QUEUED without an airing ends at the entry to QUIET, and one that airs has its
last-airing mark set. -/
def Obligations.ParticipationChanges : Prop :=
  ((∀ s : State, s.env.part.state = .listen → s.env.part.listenTimer.isSome = true →
     ∃ t, exec .listenTimerExpiry s = .next t
       ∧ t.env = { s.env with part := { s.env.part with state := .active, listenTimer := none } }
       ∧ (s.rested → s.ws.jobs.recs = [] → t.ws = s.ws))
   ∧ (∀ (s : State) (f : Frame) (rest : List Frame), s.passes f rest → f.payload = .control .quiet →
       s.env.part.state = .active →
       ∃ t, exec .quiet s = .next t ∧ t.env = { s.env with part := { s.env.part with state := .quiet } }
         ∧ (s.rested → s.ws.jobs.recs = [] → t.ws = s.taken rest))
   ∧ (∀ (s : State) (f : Frame) (rest : List Frame), s.passes f rest → f.payload = .control .wake →
       s.env.part.state = .quiet →
       ∃ t, exec .wake s = .next t ∧ t.env = { s.env with part := { s.env.part with state := .active } }
         ∧ (s.rested → s.ws.jobs.recs = [] → t.ws = s.taken rest))
   ∧ (∀ (s : State) (f : Frame) (rest : List Frame), s.rested → s.passes f rest →
       (f.payload = .control .quiet → s.env.part.state ≠ .active → exec .quiet s = .next (s.withWs (s.taken rest)))
       ∧ (f.payload = .control .wake → s.env.part.state ≠ .quiet → exec .wake s = .next (s.withWs (s.taken rest)))))
  ∧ (∀ (s : State) (f : Frame) (rest : List Frame) (r : JobRec), s.rested → s.passes f rest → f.payload = .control .quiet →
       s.env.part.state = .active → s.ws.jobs.recs = [r] → 2 ≤ r.cls.rank →
       (r.state = .queued → r.channel = none → ∃ t, exec .quiet s = .next t ∧ t.ws.jobs.recs = [])
       ∧ (r.state = .airing → ∃ t, exec .quiet s = .next t ∧ t.ws.jobs.recs = [{ r with lastMark := true }]))

/-- ISOLATION_TIMER_EXPIRY queues one isolation PROFILE where none is queued and restarts its timer at 10 s. The echo
of the isolation PROFILE ends ISOLATED: the node enters LISTEN with its timer at 2 s and ISOLATED-recovered stands; the
echo of the PROFILE of an entry to LISTEN removes ISOLATED-recovered, unless the node is ISOLATED again. -/
def Obligations.IsolationEndsByItsProfile : Prop :=
  (∀ s : State, s.rested → s.env.part.state = .isolated → s.env.part.isolationTimer.isSome = true →
     let e := { s.env with part := { s.env.part with isolationTimer := some (s.env.now + sec 10) } }
     (s.ws.line.hasIsolationProfile = true → exec .isolationTimerExpiry s = .next (s.withEnv e))
     ∧ (s.ws.line.hasIsolationProfile = false → s.ws.room →
         exec .isolationTimerExpiry s = .next ((s.withEnv e).withWs { s.ws with line := { s.ws.line with
           tx := enqueueFrame { frame := profileFrame s.env s.ws false, purpose := .isolationProfile, sending := false,
                                doomed := false } s.ws.line.tx } })))
  ∧ ((∀ (s : State) (x : EchoPlace) (b : ProfileBody), s.echoDue x → x.purpose = .isolationProfile → x.frame.payload = .profile b →
       s.env.part.state = .isolated →
       ∃ t, exec .isolationProfileEcho s = .next t
         ∧ t.env = { s.env with part := { s.env.part with
               state := .listen, listenTimer := some (s.env.now + sec 2), isolationTimer := none } }
         ∧ t.ws.line.echo = none ∧ t.ws.report.faults = { s.ws.report.faults with isolatedRecovered := true })
     ∧ (∀ (s : State) (x : EchoPlace) (b : ProfileBody), s.echoDue x → x.purpose = .listenProfile → x.frame.payload = .profile b →
         ∃ t, exec .profileEcho s = .next t ∧ t.env = s.env ∧ t.ws.line.echo = none
           ∧ t.ws.report.faults =
               if s.env.part.state = .isolated then s.ws.report.faults
               else { s.ws.report.faults with isolatedRecovered := false }))

/-- A pulse on SRV in every state but START, and a SERVICE-RESET frame addressed to this node, make the service reset; a
SERVICE-RESET addressed to every node, and a pulse in START, change nothing but the receive FIFO. The service reset frees
the call slots, empties the Job Table and the last-aired records, invalidates the cache, puts each stream in ENDING (a read
in flight) or IDLE with its budget kept and its channel in FLUSHING or FREE, and every zone in IDLE with its line-fault flag
kept; level entries are kept, and an AMP-ON taken off starts the release time; own view entries become FREE. The receive
FIFO empties, and the transmit queue too but for a frame in transmission; then come the release frames, when there is room
for them: RESET revocations, leaves and FREEs, none while ISOLATED (the order among nodes and among jobs is the model's
choice: log 19, log 38). Counters are 0; the fault set, the spoil counts, the
echo place and what the participation controller, clock, peer table and map hold are kept. -/
def Obligations.ServiceResetEmptiesTheTables : Prop :=
  (∀ s : State, s.rested → s.env.part.state ≠ .start →
    ∃ t, exec .srvPulse s = .next t ∧ s.node.serviceResetFrom t.node)
  ∧ (∀ s : State, s.rested → s.env.part.state = .start → exec .srvPulse s = .next s)
  ∧ (∀ (s : State) (f : Frame) (rest : List Frame), s.rested → s.passes f rest → f.payload = .control .serviceReset →
      (f.dest = s.env.part.node → s.env.part.state ≠ .start →
        ∃ t, exec .serviceReset s = .next t ∧ s.node.serviceResetFrom t.node)
      ∧ (f.dest ≠ s.env.part.node → exec .serviceReset s = .next (s.withWs (s.taken rest))))

/-! ### The station line (sections 9.1 to 9.3) -/

/-- FRAME_START starts the head of the queue, which passes when its arbitration field, class then source node, is lower
than every rival's; a frame that loses arbitration to a lower field stays in its place. An own frame that ends
unspoiled leaves the queue, reloads the own-spoil count to 8, sets the spoil run to 0 and puts its echo behind the
frames received. When its own check disagreed here that happens only at spoil run 16, is counted, and keeps the run; below
16 this node would have spoiled it, and the command changes nothing (the model's choice, log 10). -/
def Obligations.OwnFramesStartAndPass : Prop :=
  (∀ (s : State) (head : TxFrame) (rest : List TxFrame), s.rested →
     s.env.part.state ≠ .start → s.ws.line.echo = none → s.ws.line.tx = head :: rest → (∀ x ∈ head :: rest, x.sending = false) →
     let field := 64 * head.frame.cls.rank + head.frame.source
     ∀ rivals,
       ((∀ r ∈ rivals, field < r) → exec (.frameStart rivals) s =
         .next (s.withWs { s.ws with line := { s.ws.line with tx := { head with sending := true } :: rest } }))
       ∧ ((∃ r ∈ rivals, r < field) → exec (.frameStart rivals) s = .next s))
  ∧ (∀ (s : State) (x : TxFrame), s.rested → s.ws.line.tx.find? (·.sending) = some x →
       let sent : Line := { s.ws.line with
         tx := s.ws.line.tx.filter (fun y => !y.sending), spoilSlot := false, ownSpoils := 8,
         echo := some { frame := x.frame, purpose := x.purpose, ahead := s.ws.line.rx.length } }
       let unheard : Works := { s.ws with line := sent }
       exec (.ownFrameSent true) s = .next (s.withWs { s.ws with line := { sent with spoilRun := 0 } })
       ∧ (16 ≤ s.ws.line.spoilRun → exec (.ownFrameSent false) s = .next (s.withWs (unheard.bump .spoils)))
       ∧ (s.ws.line.spoilRun < 16 → exec (.ownFrameSent false) s = .next s))

/-- A spoil of an own frame, whether its check agreed here or not, counts once, leaves the frame queued at its place (the
isolation PROFILE and a frame of an emptied queue are lost) and takes one from the own-spoil count; the eighth makes the node ISOLATED with its timer at 10 s, the
receive FIFO empty and every trunk view entry FREE. -/
def Obligations.OwnFrameSpoiledCountsToIsolation : Prop :=
  ∀ (s : State) (x : TxFrame) (agreed : Bool), s.ws.line.tx.find? (·.sending) = some x → s.env.onLine →
    (s.rested → 2 ≤ s.ws.line.ownSpoils →
      let tx : List TxFrame :=
        if x.doomed = true ∨ x.purpose = .isolationProfile then s.ws.line.tx.filter (fun y => !y.sending)
        else s.ws.line.tx.map (fun y => { y with sending := false })
      let w : Works := { s.ws with line := { s.ws.line with
        tx := tx, ownSpoils := s.ws.line.ownSpoils - 1,
        spoilRun := if agreed = true then 0 else if s.ws.line.spoilRun < 16 then s.ws.line.spoilRun + 1 else s.ws.line.spoilRun,
        spoilSlot := !agreed && decide (s.ws.line.spoilRun < 16) } }
      exec (.ownFrameSpoiled agreed) s = .next (s.withWs (w.bump .spoils)))
    ∧ (s.ws.line.ownSpoils ≤ 1 →
      ∃ t, exec (.ownFrameSpoiled agreed) s = .next t
        ∧ t.env = { s.env with part := { s.env.part with
              state := .isolated, listenTimer := none, isolationTimer := some (s.env.now + sec 10) } }
        ∧ t.ws.line.rx = [] ∧ t.ws.line.ownSpoils = 0 ∧ t.ws.trunks = [none, none, none, none])

/-- A good frame of another node that is well formed, addressed here, of interest and no duplicate takes a place of the
receive FIFO, and its alternation bit is recorded. A bad frame is counted and spoiled while the spoil run is below 16;
a good frame spoiled by another station is counted, and so is a malformed one; a duplicate is counted as one, and a frame
that meets a full FIFO as an overrun, without its alternation bit; a frame for another node, or of no interest, only ends
the spoil run. In START the line is ignored. -/
def Obligations.FramesReceivedAreTakenOrCounted : Prop :=
  (∀ (s : State) (bytes : List Byte) (f : Frame), s.rested → s.env.part.state ≠ .start →
     isOwnFrame s.ws.line bytes = false → frameGood bytes = true → decodeFrame bytes = some f →
     f.source ≠ s.env.part.node → (f.dest = 0 ∨ f.dest = s.env.part.node) → ofInterest s.env s.ws f = true →
     isDuplicate s.env f = false → s.ws.line.rx.length < rxCapacity →
     exec (.frameReceived bytes false) s =
       .next { s with node :=
         { env := s.env.modPeer f.source (recordBit f.alt f.payload),
           ws := { s.ws with line := { s.ws.line with rx := s.ws.line.rx ++ [f], spoilRun := 0, spoilSlot := false } } } })
  ∧ (∀ (s : State) (bytes : List Byte), s.rested → s.env.part.state ≠ .start → isOwnFrame s.ws.line bytes = false →
       (frameGood bytes = false → ∀ spoiled,
         let w : Works := { s.ws with line := { s.ws.line with
           spoilRun := if s.ws.line.spoilRun < 16 then s.ws.line.spoilRun + 1 else s.ws.line.spoilRun,
           spoilSlot := decide (s.ws.line.spoilRun < 16) } }
         exec (.frameReceived bytes spoiled) s = .next (s.withWs (w.bump .spoils)))
       ∧ (frameGood bytes = true →
           let heard : Works := { s.ws with line := { s.ws.line with spoilRun := 0, spoilSlot := false } }
           exec (.frameReceived bytes true) s = .next (s.withWs (heard.bump .spoils))
           ∧ (decodeFrame bytes = none → byteAt bytes 0 % 64 ≠ s.env.part.node →
                exec (.frameReceived bytes false) s = .next (s.withWs (heard.bump .malformedFrames)))
           ∧ (∀ f, decodeFrame bytes = some f →
                (f.source = s.env.part.node ∨ (f.dest ≠ 0 ∧ f.dest ≠ s.env.part.node) ∨ ofInterest s.env s.ws f = false) →
                exec (.frameReceived bytes false) s = .next (s.withWs heard))
           ∧ ∀ f, decodeFrame bytes = some f → f.source ≠ s.env.part.node → (f.dest = 0 ∨ f.dest = s.env.part.node) →
               ofInterest s.env s.ws f = true →
               (isDuplicate s.env f = true →
                 exec (.frameReceived bytes false) s = .next (s.withWs (heard.bump .duplicatesDropped)))
               ∧ (isDuplicate s.env f = false → rxCapacity ≤ s.ws.line.rx.length →
                 exec (.frameReceived bytes false) s = .next (s.withWs (heard.bump .receiveOverruns)))))
  ∧ (∀ (s : State) (bytes : List Byte) (spoiled : Bool), s.rested → s.env.part.state = .start →
       exec (.frameReceived bytes spoiled) s = .next s)

/-- The echo of a frame that no block waits for ends its time in the echo place and does nothing else. The echo of the
ZONE-ASK of a job's present round starts the answer timer of every remote home its record still names, at 1 s; that of an
earlier round's, or of a job that is gone, does nothing else. The model knows the round's ZONE-ASK by its own serial number
(log 45). -/
def Obligations.EchoesLeaveTheEchoPlace : Prop :=
  (∀ (s : State) (x : EchoPlace), s.rested → s.echoDue x → x.purpose = .plain →
     (match x.frame.payload with | .seize _ _ _ | .free _ _ | .zoneAsk _ _ _ _ => False | _ => True) →
     exec .echo s = .next (s.withWs s.echoGone))
  ∧ (∀ (s : State) (x : EchoPlace) (tag trunk duration serial : Nat) (zones : List Nat) (r : JobRec), s.rested →
       s.echoDue x → x.frame.payload = .zoneAsk tag trunk duration zones → x.purpose = .ask serial →
       s.ws.liveJob tag = some r →
       (r.gathering.ask = some serial → (r.gathering.phase = .zones ∨ r.gathering.phase = .ready) →
         exec .zoneAskEcho s = .next (s.withWs (s.echoGone.modGather tag (fun g => { g with
           answers := (firstPlaces ((r.gathering.grants.filter (fun g => !g.isDropped)).filterMap
             (fun g => match g.home with | .remote n => some n | _ => none))).map (fun n => (n, s.env.now + sec 1)) }))))
       ∧ (r.gathering.ask ≠ some serial → exec .zoneAskEcho s = .next (s.withWs s.echoGone)))
  ∧ (∀ (s : State) (x : EchoPlace) (tag trunk duration : Nat) (zones : List Nat), s.rested → s.echoDue x →
       x.frame.payload = .zoneAsk tag trunk duration zones → s.ws.liveJob tag = none →
       exec .zoneAskEcho s = .next (s.withWs s.echoGone))

/-- The echo of an own SEIZE is applied to the view like any SEIZE: a FREE entry becomes HELD for the declared hold plus
5 s, a HELD one stands.  The echo of an own FREE frees the entry this node holds. -/
def Obligations.OwnTrunkEchoesReachTheView : Prop :=
  (∀ (s : State) (x : EchoPlace) (trunk tag hold : Nat), s.echoDue x → x.frame.payload = .seize trunk tag hold →
    ∃ t, exec .seizeEcho s = .next t ∧ t.env = s.env ∧ t.ws.line.echo = none
      ∧ (s.ws.trunk trunk = none → t.ws.trunks = s.ws.trunks.set trunk
          (some { node := x.frame.source, tag := tag, expiry := s.env.now + sec (hold + 5) }))
      ∧ (s.ws.trunk trunk ≠ none → t.ws.trunks = s.ws.trunks))
  ∧ (∀ (s : State) (x : EchoPlace) (trunk tag : Nat) (h : TrunkHold), s.echoDue x → x.frame.payload = .free trunk tag →
      s.ws.trunk trunk = some h →
      ∃ t, exec .echo s = .next t ∧ t.ws.line.echo = none
        ∧ t.ws.trunks = if h.node = x.frame.source then s.ws.trunks.set trunk none else s.ws.trunks)

/-- A PROFILE of another node: its zones are recorded at that node, the zones it no longer lists become unknown, its
profile is replaced, and its alternation bits become UNKNOWN when its request flag is set. -/
def Obligations.ProfileUpdatesMapAndPeer : Prop :=
  ∀ (s : State) (f : Frame) (rest : List Frame) (b : ProfileBody), s.passes f rest → f.payload = .profile b →
    1 ≤ f.source → f.source ≤ 63 → zonesOk b.zones → s.node.sized →
    ∃ t, exec .profile s = .next t
      ∧ (∀ z, 1 ≤ z → z ≤ 254 → t.env.homeOf z =
          if z ∈ b.zones then some f.source else if s.env.homeOf z = some f.source then none else s.env.homeOf z)
      ∧ (t.env.peer f.source).profile = some { kind := b.kind, zones := b.zones }
      ∧ (b.request = true → (t.env.peer f.source).annBit = none ∧ (t.env.peer f.source).controlBit = none
          ∧ (t.env.peer f.source).askBit = none)
      ∧ (b.request = false → (t.env.peer f.source).annBit = (s.env.peer f.source).annBit)
      ∧ (∀ n, 1 ≤ n → n ≤ 63 → n ≠ f.source → t.env.peer n = s.env.peer n)
      ∧ t.env.part = s.env.part ∧ t.env.clock = s.env.clock ∧ t.env.calls = s.env.calls ∧ t.env.faces = s.env.faces

/-- A STATUS-QUERY is answered with one class-3 STATUS frame to the querying node that carries the participation state,
the SAFE flag, the sequence number, the fault set and every counter as they stand. In ISOLATED, and on a full queue, the
frame is refused and counted as a frame dropped. -/
def Obligations.StatusQueryIsAnswered : Prop :=
  ∀ (s : State) (f : Frame) (rest : List Frame), s.rested → s.passes f rest → f.payload = .statusQuery →
    (s.env.onLine → s.ws.room →
      exec .statusQuery s = .next (s.withWs { s.taken rest with line := { s.ws.line.takeFrame rest with
        tx := queuedAmong
          { cls := .information, source := s.env.part.node, dest := f.source, alt := false,
            payload := .status
              { state := match s.env.part.state with
                  | .start => 0 | .listen => 1 | .active => 2 | .quiet => 3 | .isolated => 4,
                safe := s.env.part.safe, fault := { seq := s.ws.report.seq, set := s.ws.report.faults },
                counters := s.ws.report.counters } }
          s.ws.line.tx } }))
    ∧ ((s.env.part.state = .isolated ∨ (s.env.onLine ∧ ¬ s.ws.room)) →
      exec .statusQuery s = .next (s.withWs ((s.taken rest).bump .framesDropped)))

/-! ### Clock, calls and faces (chapters 1 and 2) -/

/-- A TIME frame sets the clock to its day and second, KNOWN, with the next tick one second on; when the clock was
UNKNOWN the condition CLOCK-UNKNOWN goes. A tick advances a KNOWN clock by one second; second 86,400 becomes 0 of the
next day, and day 65,535 is followed by 0. While the clock is UNKNOWN no tick happens. -/
def Obligations.TimeAndTickMoveTheClock : Prop :=
  (∀ (s : State) (f : Frame) (rest : List Frame) (day second : Nat), s.passes f rest → f.payload = .time day second →
     ∃ t, exec .time s = .next t
       ∧ t.env.clock = { day := day, second := second, known := true, nextTick := some (s.env.now + sec 1) }
       ∧ t.ws.report.faults =
           (if s.env.clock.known = true then s.ws.report.faults else { s.ws.report.faults with clockUnknown := false })
       ∧ t.env.part = s.env.part)
  ∧ ((∀ s : State, s.env.clock.known = true → s.env.clock.nextTick.isSome = true → s.env.clock.wf →
       ∃ t, exec .tick s = .next t
         ∧ t.env.clock =
             { day := if s.env.clock.second = 86399 then (if s.env.clock.day = 65535 then 0 else s.env.clock.day + 1)
                      else s.env.clock.day,
               second := if s.env.clock.second = 86399 then 0 else s.env.clock.second + 1,
               known := true, nextTick := some (s.env.now + sec 1) })
     ∧ (∀ s : State, s.rested → s.env.clock.known = false → exec .tick s = .next s))

/-- A CALL of an id no slot holds, live, for a face served here, with the times its kind needs and inside the day window,
is taken as new into the lowest FREE slot, with the fields of the frame and no retention timer. -/
def Obligations.NewCallTakesAFreeSlot : Prop :=
  ∀ (s : State) (f : Frame) (rest : List Frame) (b : CallBody) (slot : Nat), s.passes f rest → f.payload = .call b →
    s.node.sized → b.cancelled = false → lacksTime b = false → ¬ (s.env.clock.known = true ∧ outsideWindow s.env b.day = true) →
    slotOf s.env b.id = none → s.env.serves b.face = true → freeSlot s.env = some slot →
    ∃ t c, exec .call s = .next t ∧ t.env.callAt slot = some c
      ∧ c.id = b.id ∧ c.rev = b.rev ∧ c.day = b.day ∧ c.face = b.face ∧ c.kind = b.kind ∧ c.sArr = b.sArr
      ∧ c.sDep = (clampDeparture b).1 ∧ c.delay = b.delay ∧ c.dest = b.dest ∧ c.origin = b.origin ∧ c.operator = b.operator
      ∧ c.formation = b.formation ∧ c.points = b.points ∧ c.state.live = true ∧ c.retention = none

/-- A CALL of the revision held is a duplicate, one of an older revision is stale: both are counted and leave the table.
A newer cancellation of a live call retires it: CANCELLED, retention timer 600 s, no dwell timer, no step PENDING. That
its status becomes cancelled too is the model's choice (log 31): R21 names revision and state alone. -/
def Obligations.CallRevisionsAreSerial : Prop :=
  ∀ (s : State) (f : Frame) (rest : List Frame) (b : CallBody) (slot : Nat) (c : CallRec), s.passes f rest →
    f.payload = .call b → s.node.sized → (b.cancelled = true ∨ lacksTime b = false) →
    ¬ (s.env.clock.known = true ∧ outsideWindow s.env b.day = true) → slotOf s.env b.id = some (slot, c) → c.day = b.day →
    b.rev < 256 → c.rev < 256 →
    (s.rested → b.rev = c.rev → exec .call s = .next (s.withWs ((s.taken rest).bump .duplicatesDropped)))
    ∧ (s.rested → 128 ≤ (b.rev + 256 - c.rev) % 256 →
        exec .call s = .next (s.withWs ((s.taken rest).bump .staleRevisions)))
    ∧ (b.rev ≠ c.rev → (b.rev + 256 - c.rev) % 256 < 128 → c.state.live = true → b.cancelled = true →
        ∃ t c', exec .call s = .next t ∧ t.env.callAt slot = some c' ∧ c'.id = c.id ∧ c'.state = .cancelled
          ∧ c'.statusCancelled = true ∧ c'.rev = b.rev ∧ c'.retention = some (s.env.now + sec 600) ∧ c'.dwell = none
          ∧ ∀ x ∈ c'.steps, x ≠ .pending)

/-- The retention timer's expiry frees the slot; the dwell timer's expiry brings a call in AT-PLATFORM to FINISHED, with
its retention timer at 600 s. -/
def Obligations.SlotTimersRetireAndFree : Prop :=
  (∀ (s : State) (slot : Nat) (c : CallRec), s.rested → s.env.callAt slot = some c → c.retention.isSome = true →
    exec (.retentionTimerExpiry slot) s = .next (s.withEnv { s.env with calls := s.env.calls.set slot none }))
  ∧ (∀ (s : State) (slot : Nat) (c : CallRec), s.node.sized → s.env.callAt slot = some c → c.dwell.isSome = true →
      c.state = .atPlatform →
      ∃ t c', exec (.dwellTimerExpiry slot) s = .next t ∧ t.env.callAt slot = some c' ∧ c'.id = c.id ∧ c'.state = .finished
        ∧ c'.dwell = none ∧ c'.retention = some (s.env.now + sec 600) ∧ ∀ x ∈ c'.steps, x ≠ .pending)

/-- A change of a presence input starts the debounce timer of its face when the level differs from the debounced one,
and stops it when it does not; the pin takes its level. At the debounce timer's expiry the debounced presence takes the
input's level. A rise without a current call is counted; a rise brings a current call in PLANNED or DUE to its face; a
fall retires a current call that is at its face. -/
def Obligations.PresenceIsDebouncedAndActs : Prop :=
  (∀ (s : State) (position : Nat) (level : Bool) (f : FaceRec), s.rested → levelAt s.env.pins.pres position ≠ level →
     s.env.faces[position]? = some (some f) →
     exec (.presenceInputChange position level) s =
       .next (s.withEnv { s.env with
         pins := { s.env.pins with pres := s.env.pins.pres.set position level },
         faces := s.env.faces.set position (some { f with
           debounce := if level = f.presence then none else some (s.env.now + sec s.env.part.cfg.settings.debounce) }) }))
  ∧ (∀ (s : State) (position : Nat) (f : FaceRec), s.node.sized → s.ws.report.wf → s.env.faces[position]? = some (some f) →
       f.debounce.isSome = true →
       (∃ t f', exec (.debounceTimerExpiry position) s = .next t ∧ t.env.faces[position]? = some (some f')
         ∧ f'.presence = levelAt s.env.pins.pres position ∧ f'.debounce = none ∧ f'.cfg = f.cfg)
       ∧ (levelAt s.env.pins.pres position = true → f.current = none →
           ∃ t, exec (.debounceTimerExpiry position) s = .next t
             ∧ t.ws.counter .presenceWithoutCall = saturate (s.ws.counter .presenceWithoutCall))
       ∧ (∀ slot c, f.current = some slot → s.env.callAt slot = some c →
           (levelAt s.env.pins.pres position = true → (c.state = .planned ∨ c.state = .due) →
             ∃ t c', exec (.debounceTimerExpiry position) s = .next t ∧ t.env.callAt slot = some c'
               ∧ c'.id = c.id ∧ (c'.state = .atPlatform ∨ c'.state = .closing))
           ∧ (levelAt s.env.pins.pres position = false → (c.state = .atPlatform ∨ c.state = .closing) →
             ∃ t c', exec (.debounceTimerExpiry position) s = .next t ∧ t.env.callAt slot = some c' ∧ c'.id = c.id
               ∧ c'.state = (if c.kind.hasDep = true ∨ c.state = .closing then .departed else .finished)
               ∧ c'.retention = some (s.env.now + sec 600))))

/-- The grace and catch-up rule on one ladder: of the due steps the one of smallest lead fires when it is late by at most
the grace, and every other due step is SKIPPED; steps not due stand. -/
def Obligations.LadderFiresOnlyTheLatestDueStep : Prop :=
  ∀ (e : Env) (slot : Nat) (f : FaceCfg) (side : LadderSide) (expected : Nat) (c : CallRec) (last : Nat × Nat × LadderStep),
    c.steps.length = 12 → (ladderOf f side).steps.length ≤ 6 →
    latestStep (dueSteps e c side expected (ladderOf f side)) = some last →
    let due := dueSteps e c side expected (ladderOf f side)
    let r := evaluateLadder e slot f side expected c
    let inGrace : Prop := -(e.part.cfg.settings.grace : Int) ≤ stepRelative e c expected last.2.1
    (∀ x ∈ due, last.2.1 ≤ x.2.1)
    ∧ (inGrace → r.call.step (stepPlace side last.1) = .fired
        ∧ r.requests = requestOfStep (.ladder slot (stepPlace side last.1 + 1)) (some (callRefOf slot c)) last.2.2 f)
    ∧ (¬ inGrace → r.call.step (stepPlace side last.1) = .skipped ∧ r.requests = [])
    ∧ (∀ x ∈ due, x.1 ≠ last.1 → r.call.step (stepPlace side x.1) = .skipped)
    ∧ (∀ i, (∀ x ∈ due, stepPlace side x.1 ≠ i) → r.call.step i = c.step i)

/-- The announced delay minutes M: 0 when the clamped delay is 0 or less, else the delay divided by 60 rounded up, and
121 for more than 120. DELAY-MIN speaks M: "0 minutes", "1 minute", M "minutes", or "more than two hours" alone; always
one or two phrases. -/
def Obligations.DelayMinutesAndTheirPhrases : Prop :=
  (∀ (d : Option Int), let dc := clampedDelay d
     let m := announcedMinutes d
     (dc ≤ 0 → m = 0)
     ∧ (0 < dc → dc ≤ 7200 → ((m : Int) - 1) * 60 < dc ∧ dc ≤ (m : Int) * 60)
     ∧ (7200 < dc → m = 121) ∧ m ≤ 121 ∧ (1 ≤ dc → 1 ≤ m))
  ∧ (delayPhrases 0 = [16, 140] ∧ delayPhrases 1 = [17, 143] ∧ delayPhrases 121 = [141]
       ∧ (∀ m, 2 ≤ m → m ≤ 120 → delayPhrases m = [16 + m, 140])
       ∧ ∀ d : Option Int, 1 ≤ (delayPhrases (announcedMinutes d)).length ∧ (delayPhrases (announcedMinutes d)).length ≤ 2)

/-! ### Jobs (chapter 3) -/

/-- An ANNOUNCE that passes its checks is issued the next tag and becomes a QUEUED record of the table; one whose template
is not provided is refused BAD-REQUEST, which takes a tag, makes no record and is reported when the mask sends it. -/
def Obligations.AnnounceMakesAJob : Prop :=
  ∀ (s : State) (f : Frame) (rest : List Frame) (a : AnnounceBody), s.rested → s.passes f rest → f.payload = .announce a →
    let tag := s.ws.jobs.nextTag
    (a.callMatch = none → (∀ n, a.content = .template n → provided s.env n = true) → (a.required ≠ [] ∨ a.optional ≠ []) →
      (f.cls = .emergency → isConsole s.env f.source = true) → ¬ (s.env.part.state = .quiet ∧ 2 ≤ f.cls.rank) →
      s.ws.jobs.recs.length < jobCapacity → ¬ canDispatch s.env s.ws →
      let q : JobRequest :=
        { origin := .console f.source a.request, callRef := none, content := a.content, cls := f.cls, reps := a.reps,
          gap := a.gap, required := (cleanZones a.required a.optional).1, optional := (cleanZones a.required a.optional).2,
          notBefore := a.notBefore.map (notBeforeNow s.env), replay := none }
      exec .announce s = .next (s.withWs { s.taken rest with jobs := { s.ws.jobs with
        recs := s.ws.jobs.recs ++ [recordOf q tag (s.ws.jobs.creation + 1)], lastTag := tag,
        creation := s.ws.jobs.creation + 1 } }))
    ∧ (∀ n, a.content = .template n → provided s.env n = false → s.env.onLine → s.ws.room →
        let report : Frame := mkFrame s.env .information 0 (.jobReport
          { tag := tag, origin := .console, ref := .console f.source a.request, content := .template n, code := .badRequest,
            flags := {}, airings := 0, zonesAired := 0, remaining := 0 })
        exec .announce s = .next (s.withWs { s.taken rest with
          jobs := { s.ws.jobs with lastTag := tag },
          line := { s.ws.line.takeFrame rest with
            tx := if s.env.part.cfg.mask.neverStarted = true then queuedAmong report s.ws.line.tx else s.ws.line.tx } }))

/-- A REPLAY-LAST request becomes a QUEUED record with the list, duration, class and zones of the last-aired record. A
rising edge of a trigger input requests its job, which becomes the input's trigger job; a falling edge sets the
input-fell mark of the trigger job. The model's choices: the repeat gap of 2 s of a REPLAY request, which is never used
(log 32), and the cleaning of the trigger entry's zone lists (log 17). -/
def Obligations.ReplayAndTriggersMakeJobs : Prop :=
  (∀ (s : State) (f : Frame) (rest : List Frame) (face : Nat) (l : LastAired), s.rested → s.passes f rest →
     f.payload = .control (.replayLast face) → s.ws.replaySource s.env face = some l →
     ¬ (s.env.part.state = .quiet ∧ 2 ≤ l.cls.rank) → s.ws.jobs.recs.length < jobCapacity → ¬ canDispatch s.env s.ws →
     let tag := s.ws.jobs.nextTag
     let q : JobRequest :=
       { origin := .replay face, callRef := none, content := l.content, cls := l.cls, reps := 0, gap := 2,
         required := l.required, optional := l.optional, notBefore := none, replay := some (l.list, l.duration) }
     exec .replayLast s = .next (s.withWs { s.taken rest with jobs := { s.ws.jobs with
       recs := s.ws.jobs.recs ++ [recordOf q tag (s.ws.jobs.creation + 1)], lastTag := tag,
       creation := s.ws.jobs.creation + 1 } }))
  ∧ ((∀ (s : State) (input : Nat) (q : JobRequest), s.rested → levelAt s.env.pins.trig input = false →
       s.env.part.state ≠ .start → s.ws.triggerJob input = none → triggerRequest s.env input = some q →
       ¬ (s.env.part.state = .quiet ∧ 2 ≤ q.cls.rank) → s.ws.jobs.recs.length < jobCapacity → ¬ canDispatch s.env s.ws →
       let tag := s.ws.jobs.nextTag
       exec (.triggerRisingEdge input) s =
         .next ((s.withEnv { s.env with pins := { s.env.pins with trig := s.env.pins.trig.set input true } }).withWs
           { s.ws with jobs := { s.ws.jobs with
               recs := s.ws.jobs.recs ++ [recordOf q tag (s.ws.jobs.creation + 1)], lastTag := tag,
               creation := s.ws.jobs.creation + 1, triggerJobs := s.ws.jobs.triggerJobs.set input (some tag) } }))
     ∧ (∀ (s : State) (input tag : Nat) (r : JobRec), s.rested → levelAt s.env.pins.trig input = true →
         s.env.part.state ≠ .start → s.ws.triggerJob input = some tag → s.ws.job tag = some r → r.state ≠ .gap →
         exec (.triggerFallingEdge input) s =
           .next ((s.withEnv { s.env with pins := { s.env.pins with trig := s.env.pins.trig.set input false } }).withWs
             (s.ws.modJob tag (fun r => { r with fellMark := true })))))

/-- The gap timer brings a job in GAP back to BINDING on its channel, with its template asked for; the retry timer brings
a job in RETRY-WAIT back to QUEUED, and with a channel FREE it is dispatched to it at once. -/
def Obligations.GapAndRetryTimersGoOn : Prop :=
  (∀ (s : State) (r : JobRec) (n template : Nat), s.rested → s.node.sized → n < 2 → s.ws.jobs.recs = [r] → r.state = .gap →
    r.gapTimer.isSome = true → r.isReplay = false → r.callRef = none → r.content = .template template → r.channel = some n →
    ∃ t r', exec (.gapTimerExpiry r.tag) s = .next t ∧ t.ws.jobs.recs = [r'] ∧ r'.tag = r.tag ∧ r'.state = .binding
      ∧ r'.gapTimer = none ∧ r'.channel = some n
      ∧ (WaitingRead.mk n (.template template) ∈ t.ws.flash.waiting
          ∨ t.ws.flash.port = some (.bind n (.template template) true)))
  ∧ (∀ (s : State) (r : JobRec) (template : Nat), s.rested → s.node.sized → s.ws.jobs.recs = [r] → r.state = .retryWait →
      r.retryTimer.isSome = true → r.channel = none → r.callRef = none → r.isReplay = false → r.notBefore = none →
      r.content = .template template →
      (¬ canDispatch s.env s.ws → exec (.retryTimerExpiry r.tag) s =
        .next (s.withWs { s.ws with jobs := { s.ws.jobs with recs := [{ r with state := .queued, retryTimer := none }] } }))
      ∧ (s.env.part.state = .active → (s.ws.channel 0).state = .free →
          ∃ t r', exec (.retryTimerExpiry r.tag) s = .next t ∧ t.ws.jobs.recs = [r'] ∧ r'.tag = r.tag ∧ r'.state = .binding
            ∧ r'.channel = some 0 ∧ r'.retryTimer = none ∧ (t.ws.channel 0).state = .reserved))

/-- When the LIST-END marker of an airing reaches the head, the job ends COMPLETED and is counted when no further airing
is due, and enters GAP with its channel HELD when one is. A job that ends so, and is no REPLAY, is copied into the last-aired
record of the face position of its last snapshot's face, failing that of its PRESENCE face, else the general one. -/
def Obligations.EndOfAudioCompletesOrRepeats : Prop :=
  ∀ (s : State) (n : Nat) (r : JobRec) (carrier : List Bool), s.rested → s.node.sized → s.ws.report.wf → n < 2 →
    (s.ws.channel n).state = .playing → (s.ws.channel n).fifo = [.listEnd] → (s.ws.channel n).position = none →
    (s.ws.channel (1 - n)).plays = false → s.ws.jobs.recs = [r] → r.channel = some n → r.state = .airing → r.ending = none →
    (r.furtherDue = false →
      ∃ t, exec (.samplePeriod carrier) s = .next t ∧ t.ws.jobs.recs = [] ∧ (t.ws.channel n).transmit = none
        ∧ t.ws.counter .jobsCompleted = saturate (s.ws.counter .jobsCompleted)
        ∧ (r.isReplay = true → t.ws.jobs.lastAired = s.ws.jobs.lastAired)
        ∧ (∀ b, r.lastBound = some b → r.isReplay = false →
            let place : Nat :=
              match r.lastFace.bind s.env.facePosition with
              | some i => i
              | none => match r.origin with | .presence f => (s.env.facePosition f).getD 4 | _ => 4
            t.ws.jobs.lastAired = s.ws.jobs.lastAired.set place (some
              { cls := r.cls, content := r.content, required := r.required, optional := r.optional, list := b.list,
                duration := b.duration })))
    ∧ (r.furtherDue = true →
      ∃ t r', exec (.samplePeriod carrier) s = .next t ∧ t.ws.jobs.recs = [r'] ∧ r'.tag = r.tag ∧ r'.state = .gap
        ∧ r'.airings = min 255 (r.airings + 1) ∧ r'.gapTimer = some (s.env.now + sec r.gap)
        ∧ (t.ws.channel n).state = .held ∧ (t.ws.channel n).transmit = none)

/-! ### Flash and playout (chapters 4 and 5) -/

/-- The read on the port is of 512 bytes at byte 512 × its block, or of the 128 bytes of template t, quarter t mod 4 of
block 64 + t / 4; phrase p's directory entry is entry p mod 64 of block p / 64. A template read expands its items; when
the first phrase not in the cached directory block needs a read, binding goes on with that block asked for. A directory
read puts its block in the cache and removes FLASH-PORT. One made for the binding of the one job, with no FLASH-PORT before
it, looks the phrases still to do up in its block: when one needs another block, binding goes on with that block asked for;
when none does, the job ends STALE by its mark and else BIND-FAIL by its failure, or enters GATHERING with its list, its
duration and its channel FILLING from the list (said for ACTIVE and QUIET, a zone homed at another node, a stream IDLE and
phrases with samples; that the cut to 180 s is made on this way alone is the model's choice, log 56). A read without
response places FLASH-PORT, empties the cache when it was a directory read, ends the one job whose binding it was made for,
and fails the phrase when it was an essential one's audio read. -/
def Obligations.BindingReadsGoOnAndFail : Prop :=
  (∀ (s : State) (r : JobRec) (n template block : Nat) (data : List Byte), s.rested → s.ws.jobs.recs = [r] →
     r.channel = some n → r.binding.isSome = true → s.ws.flash.port = some (.bind n (.template template) true) →
     s.ws.report.faults.flashPort = false →
     let items := templateItems data
     let found := lookUps s.ws.flash.cache (expandItems (contextOf s.env r) items).1
     neededBlock found.2 = some block →
     ∃ t r', exec (.templateReadComplete data) s = .next t ∧ t.ws.jobs.recs = [r'] ∧ r'.tag = r.tag ∧ r'.state = r.state
       ∧ r'.binding = some { awaitingTemplate := false, bound := found.1, todo := found.2,
                             failed := items.isEmpty || essentialAbsent (contextOf s.env r) items }
       ∧ (WaitingRead.mk n (.directory block) ∈ t.ws.flash.waiting ∨ t.ws.flash.port = some (.bind n (.directory block) true)))
  ∧ ((∀ (s : State) (n block : Nat) (live : Bool) (data : List Byte),
       s.ws.flash.port = some (.bind n (.directory block) live) →
       ∃ t, exec (.directoryReadComplete data) s = .next t ∧ t.ws.flash.cache = some (block, data)
         ∧ t.ws.report.faults = { s.ws.report.faults with flashPort := false })
     ∧ (∀ (s : State) (r : JobRec) (b : Binding) (n block : Nat) (data : List Byte), s.rested → s.ws.jobs.recs = [r] →
         r.channel = some n → r.binding = some b → s.ws.flash.port = some (.bind n (.directory block) true) →
         s.ws.report.faults.flashPort = false →
         let found := lookUps (some (block, data)) b.todo
         let bound := b.bound ++ found.1
         let list := cutDuration bound.length bound
         (∀ next, neededBlock found.2 = some next →
           ∃ t, exec (.directoryReadComplete data) s = .next t ∧ t.env = s.env
             ∧ t.ws.jobs.recs = [{ r with binding := some { b with bound := bound, todo := found.2 } }]
             ∧ (WaitingRead.mk n (.directory next) ∈ t.ws.flash.waiting ∨ t.ws.flash.port = some (.bind n (.directory next) true)))
         ∧ (neededBlock found.2 = none → (r.staleMark = true ∨ b.failed = true) → s.ws.report.wf → r.ending = none →
             ∃ t, exec (.directoryReadComplete data) s = .next t ∧ t.env = s.env ∧ t.ws.jobs.recs = []
               ∧ t.ws.counter .jobsFailed = saturate (s.ws.counter .jobsFailed)
               ∧ (s.reportable r → t.reports r.tag (if r.staleMark = true then .stale else .bindFail)))
         ∧ (neededBlock found.2 = none → r.staleMark = false → b.failed = false → s.node.sized → n < 2 →
             (s.env.part.state = .active ∨ s.env.part.state = .quiet) → s.ws.room → (s.ws.stream n).state = .idle →
             (∃ z ∈ r.required ++ r.optional, s.ws.homes z = false ∧ (s.env.homeOf z).isSome = true) →
             (∀ p, .phrase p ∈ list → 0 < p.samples) →
             ∃ t r', exec (.directoryReadComplete data) s = .next t ∧ t.env = s.env ∧ t.ws.jobs.recs = [r'] ∧ r'.tag = r.tag
               ∧ r'.state = .gathering ∧ r'.binding = none ∧ r'.expanded = some list ∧ r'.duration = airingDuration list
               ∧ r'.flags.truncated = (r.flags.truncated || decide (list.length < bound.length))
               ∧ r'.gathering.phase = .trunk
               ∧ r'.gathering.hold = declaredHold (airingDuration list) s.env.part.cfg.settings.gather
               ∧ (t.ws.channel n).state = .filling ∧ (t.ws.stream n).list = list))
     ∧ (∀ (s : State) (r : JobRec) (n : Nat) (read : BindRead), s.rested → s.ws.report.wf → s.ws.jobs.recs = [r] →
         r.channel = some n → r.binding.isSome = true → r.ending = none → s.ws.flash.port = some (.bind n read true) →
         ∃ t, exec .flashReadNoResponse s = .next t ∧ t.ws.jobs.recs = []
           ∧ t.ws.counter .jobsFailed = saturate (s.ws.counter .jobsFailed))
     ∧ (∀ (s : State) (p : PortRead), s.ws.flash.port = some p →
         ∃ t, exec .flashReadNoResponse s = .next t ∧ t.ws.report.faults = { s.ws.report.faults with flashPort := true }
           ∧ (∀ n block live, p = .bind n (.directory block) live → t.ws.flash.cache = none)
           ∧ (∀ n r x, p = .audio n → s.ws.report.wf → (s.ws.stream n).state = .running → (s.ws.stream n).inFlight = some r →
               (s.ws.stream n).current = some x → x.essential = true →
               saturate (s.ws.counter .phraseFailures) ≤ t.ws.counter .phraseFailures)))
  ∧ (∀ w : Works,
       (∀ n template live, w.flash.port = some (.bind n (.template template) live) →
         w.portSpan = some ((64 + template / 4) * 512 + template % 4 * 128, 128))
       ∧ (∀ n block live, w.flash.port = some (.bind n (.directory block) live) → w.portSpan = some (block * 512, 512))
       ∧ (∀ n r, w.flash.port = some (.audio n) → (w.stream n).inFlight = some r → w.portSpan = some (r.block * 512, 512)))
  ∧ (∀ (p : PhraseEntry) (rest : List ListEntry) (data : List Byte),
       neededBlock (.phrase p :: rest) = some (p.phrase / 64) ∧ (lookUp data p).start = threeAt data (8 * (p.phrase % 64)))

/-- A good audio read puts the block's samples in the channel FIFO and reloads the stream's budget; an UNREADABLE one
takes one from the budget, is counted, and leaves the FIFO and the blocks remaining. -/
def Obligations.AudioReadsFillTheFifo : Prop :=
  ∀ (s : State) (n : Nat) (p : PhraseEntry) (r : InFlight) (data : List Byte), s.rested → s.node.sized → s.ws.report.wf →
    n < 2 → s.ws.flash.port = some (.audio n) → s.ws.report.faults.flashPort = false → (s.ws.channel n).state = .playing →
    (s.ws.stream n).state = .running → (s.ws.stream n).inFlight = some r → (s.ws.stream n).current = some p →
    (audioOutcome data r.phrase r.index = .good → 2 ≤ (s.ws.stream n).remaining →
      ∃ t, exec (.audioReadComplete data) s = .next t
        ∧ (t.ws.channel n).fifo = (s.ws.channel n).fifo
            ++ (data.take 504).map (fun b => .sample b (s.ws.stream n).position p.item)
        ∧ (t.ws.stream n).remaining = (s.ws.stream n).remaining - 1
        ∧ (t.ws.stream n).budget = s.env.part.cfg.settings.budget)
    ∧ (audioOutcome data r.phrase r.index = .unreadable → 1 ≤ (s.ws.stream n).budget →
      ∃ t, exec (.audioReadComplete data) s = .next t ∧ (t.ws.channel n).fifo = (s.ws.channel n).fifo
        ∧ (t.ws.stream n).remaining = (s.ws.stream n).remaining
        ∧ (t.ws.stream n).budget = (s.ws.stream n).budget - 1
        ∧ t.ws.counter .fetchRetries = saturate (s.ws.counter .fetchRetries))

/-- A companded sample decodes to (2 × step + 33) × 2^segment − 33, negative when its sign says so; magnitudes run from 0
to 8,031, and positive sign, segment 0, step 0 decodes to 0. The decoded value is the output of a playing channel for the
period in which it takes the sample, at full scale. -/
def Obligations.SampleDecoding : Prop :=
  (∀ (sign : Bool) (segment step : Nat), segment < 8 → step < 16 →
    decodeSample (BitVec.ofNat 8 ((if sign then 128 else 0) + 16 * segment + step)) =
      (if sign then -(((2 * step + 33) * 2 ^ segment - 33 : Nat) : Int) else (((2 * step + 33) * 2 ^ segment - 33 : Nat) : Int)))
  ∧ (∀ b : Byte, (decodeSample b).natAbs ≤ 8031) ∧ decodeSample 0x7F#8 = 8031 ∧ decodeSample 0xFF#8 = -8031
  ∧ decodeSample 0x00#8 = 0
  ∧ ∀ (s : State) (n : Nat) (carrier : List Bool) (b : Byte) (i p : Nat) (rest : List FifoItem), s.rested → s.node.sized →
      n < 2 → (s.ws.channel n).plays = true → (s.ws.channel n).playingSilent = none → (s.ws.channel (1 - n)).plays = false →
      (s.ws.channel n).fifo = .sample b i p :: rest →
      ∃ t, exec (.samplePeriod carrier) s = .next t ∧ (t.ws.channel n).output = decodeSample b

/-- In a sample period a playing channel whose head is a sample puts its value out; one whose FIFO holds nothing counts an
underrun period and puts out silence, and the first of an episode is counted. That the carrier levels arrive with
SAMPLE_PERIOD (log 6), and that a marker behind the sample stays at the head until the next SAMPLE_PERIOD (log 26), is the
model's choice. -/
def Obligations.SamplePeriodPlaysOrStarves : Prop :=
  ∀ (s : State) (n : Nat) (carrier : List Bool), s.rested → s.node.sized → s.ws.report.wf → n < 2 →
    (s.ws.channel n).plays = true → (s.ws.channel n).playingSilent = none → (s.ws.channel (1 - n)).plays = false →
    (∀ b i p rest, (s.ws.channel n).fifo = .sample b i p :: rest →
      ∃ t, exec (.samplePeriod carrier) s = .next t ∧ (t.ws.channel n).output = decodeSample b
        ∧ (t.ws.channel n).fifo = rest ∧ (t.ws.channel n).underrunEpisode = none
        ∧ t.env = { s.env with pins := { s.env.pins with carrier := carrier } })
    ∧ ((s.ws.channel n).fifo = [] → (s.ws.channel n).underrunTotal < 4000 → (s.ws.channel n).underrunEpisode.getD 0 < 32000 →
      ∃ t, exec (.samplePeriod carrier) s = .next t ∧ (t.ws.channel n).output = 0
        ∧ (t.ws.channel n).underrunTotal = (s.ws.channel n).underrunTotal + 1
        ∧ (t.ws.channel n).underrunEpisode = some ((s.ws.channel n).underrunEpisode.getD 0 + 1)
        ∧ t.ws.counter .underruns =
            if (s.ws.channel n).underrunEpisode = none then saturate (s.ws.counter .underruns) else s.ws.counter .underruns)

/-- The end of a gap or silence entry that is no stop entry makes the playout position absent, and a silence counts as
a phrase played; the end of the stop entry ends the job and empties the channel. An underrun total of 4,001 periods sets
the job's UNDERRUN flag; an episode of 32,001 periods ends the job FETCH-STALL, counted as failed, with its channel emptied,
and its JOB-REPORT names that code (when the node is on the line, the mask sends it and the queue has room). That
GAP_SILENCE_END acts whatever time was left, that UNDERRUN and STALL each bring the count to its limit in one command (log 9),
and that a marker at the head of the FIFO then waits for the next SAMPLE_PERIOD (log 26), is the model's choice. -/
def Obligations.SilentEntriesUnderrunsAndStalls : Prop :=
  (∀ (s : State) (n : Nat) (p : Playing), s.rested → (s.ws.channel n).playingSilent = some p →
     (s.ws.channel n).stopsAt p.position = false →
     exec (.gapSilenceEnd n) s = .next (s.withWs (s.ws.modChannel n (fun c => { c with
       position := none, output := 0, played := if p.kind = .silence then c.played + 1 else c.played }))))
  ∧ (∀ (s : State) (n : Nat) (p : Playing) (r : JobRec), s.rested → s.node.sized → n < 2 →
       (s.ws.channel n).playingSilent = some p → (s.ws.channel n).stopsAt p.position = true → s.ws.jobs.recs = [r] →
       r.channel = some n →
       ∃ t, exec (.gapSilenceEnd n) s = .next t ∧ t.ws.jobs.recs = [] ∧ (t.ws.channel n).fifo = []
         ∧ (t.ws.channel n).position = none ∧ (t.ws.channel n).transmit = none)
  ∧ (∀ (s : State) (n : Nat) (r : JobRec), s.rested → s.node.sized → s.ws.report.wf → n < 2 → (s.ws.channel n).dry = true →
       s.ws.jobs.recs = [r] → r.channel = some n →
       ((s.ws.channel n).underrunTotal < 4001 →
         (s.ws.channel n).underrunEpisode.getD 0 + (4001 - (s.ws.channel n).underrunTotal) < 32001 →
         ∃ t, exec (.underrun n) s = .next t ∧ (t.ws.channel n).underrunTotal = 4001
           ∧ t.ws.jobs.recs = [{ r with flags := { r.flags with underrun := true } }])
       ∧ ((s.ws.channel n).underrunEpisode ≠ some 32001 → r.ending = none →
         ∃ t, exec (.stall n) s = .next t ∧ t.ws.jobs.recs = [] ∧ (t.ws.channel n).fifo = []
           ∧ t.ws.counter .jobsFailed = saturate (s.ws.counter .jobsFailed)
           ∧ (s.reportable r → t.reports r.tag .fetchStall)))

/-! ### Zones (chapter 6) -/

/-- A ZONE-ASK of another node for a zone in IDLE, passing the tests, is granted: the asker becomes the holder, the zone
enters SETTLING with AMP-ON, and the answer is GRANTED with the settle time; one that a test denies gets the denial and
leaves the zones. -/
def Obligations.ZoneAskIsAnswered : Prop :=
  ∀ (s : State) (f : Frame) (rest : List Frame) (tag trunk duration zone : Nat) (z : ZoneRec), s.rested → s.passes f rest →
    f.payload = .zoneAsk tag trunk duration [zone] → s.env.onLine → s.ws.room → s.ws.zone zone = some z → z.wf →
    currentVerdict s.env.now z f.source tag = none →
    let a : Ask := { node := f.source, tag := tag, cls := f.cls, source := .trunk trunk, duration := duration }
    let answer (v : Verdict) : Frame :=
      { cls := f.cls, source := s.env.part.node, dest := f.source, alt := false, payload := .zoneAnswer tag [(zone, v)] }
    (deniedBy s.env s.ws z a = none → z.state = .idle → 0 < s.env.part.cfg.settings.settle →
      ∃ t, exec .zoneAsk s = .next t ∧ t.env = s.env
        ∧ t.ws.zone zone = some { z with
            holder := some { node := f.source, tag := tag, cls := f.cls, source := .trunk trunk, duration := duration,
                             expiry := s.env.now + sec (duration + 5) },
            state := .settling, settle := some (s.env.now + ms s.env.part.cfg.settings.settle) }
        ∧ (∀ other, other ≠ zone → t.ws.zone other = s.ws.zone other)
        ∧ t.ws.level zone = (s.ws.level zone).map (fun l => { l with hold := .held, release := none })
        ∧ t.ws.line.tx = queuedAmong (answer (.granted s.env.part.cfg.settings.settle z.fault)) s.ws.line.tx
        ∧ t.ws.jobs = s.ws.jobs ∧ t.ws.channels = s.ws.channels ∧ t.ws.report = s.ws.report)
    ∧ (∀ d, deniedBy s.env s.ws z a = some d →
        exec .zoneAsk s = .next (s.withWs { s.taken rest with
          line := { s.ws.line.takeFrame rest with tx := queuedAmong (answer (.denied d)) s.ws.line.tx } }))

/-- The denials of an ask, in the order of Table 6-3: SAFE configuration, a trunk the view records at another node, QUIET,
and a line fault; all but the second for the classes OPERATIONAL and INFORMATION only. -/
def Obligations.DenialsOfAnAsk : Prop :=
  ∀ (e : Env) (w : Works) (z : ZoneRec) (a : Ask),
    let low : Prop := 2 ≤ a.cls.rank
    let taken : Prop := ∃ t h, a.source = .trunk t ∧ w.trunk t = some h ∧ h.node ≠ a.node
    (deniedBy e w z a = some .cls ↔ e.part.safe = true ∧ low)
    ∧ (deniedBy e w z a = some .trunk ↔ ¬ (e.part.safe = true ∧ low) ∧ taken)
    ∧ (deniedBy e w z a = some .quiet ↔ e.part.safe = false ∧ ¬ taken ∧ e.part.state = .quiet ∧ low)
    ∧ (deniedBy e w z a = some .fault ↔ e.part.safe = false ∧ ¬ taken ∧ e.part.state ≠ .quiet ∧ z.fault = true ∧ low)
    ∧ deniedBy e w z a ≠ some .busy

/-- A zone in HOLDING is granted at once with ready delay 0 and speaks; a zone in IDLE is granted with the settle time, or
speaks at once when that is 0; a zone that speaks is driven at the attenuation for the ask's class. -/
def Obligations.IdleAndHoldingZonesAreGranted : Prop :=
  ∀ (e : Env) (w : Works) (z : ZoneRec) (a : Ask), w.zone z.zone = some z → z.wf →
    currentVerdict e.now z a.node a.tag = none → deniedBy e w z a = none →
    let holder : Holder :=
      { node := a.node, tag := a.tag, cls := a.cls, source := a.source, duration := a.duration,
        expiry := e.now + sec (a.duration + 5) }
    let settle := e.part.cfg.settings.settle
    let r := w.askRecord e z a
    let speaks : Prop :=
      r.1.zone z.zone = some { z with holder := some holder, state := .speaking, settle := none, hold := none }
        ∧ ∀ l, r.1.level z.zone = some l → l.attenuation = l.attenuationFor a.cls
    (z.state = .holding → r.2 = (.granted 0 z.fault, []) ∧ speaks)
    ∧ (z.state = .idle → settle = 0 → r.2 = (.granted 0 z.fault, []) ∧ speaks)
    ∧ (z.state = .idle → 0 < settle → r.2 = (.granted settle z.fault, [])
        ∧ r.1.zone z.zone = some { z with holder := some holder, state := .settling, settle := some (e.now + ms settle) })

/-- An ask of better class than the holder's preempts it, and the holder is revoked PREEMPTED; one of the same or a worse
class is queued by class and arrival; on a full list it displaces the worst entry of a worse class, or is denied BUSY. -/
def Obligations.AsksOfHeldZones : Prop :=
  ∀ (e : Env) (w : Works) (z : ZoneRec) (a : Ask) (h : Holder), w.zone z.zone = some z → z.wf → z.holder = some h →
    currentVerdict e.now z a.node a.tag = none → deniedBy e w z a = none →
    let r := w.askRecord e z a
    let entry : Waiter :=
      { node := a.node, tag := a.tag, cls := a.cls, source := a.source, duration := a.duration, order := w.zones.arrivals + 1,
        wait := e.now + sec e.part.cfg.settings.waitLimit }
    (a.cls.rank < h.cls.rank →
      r.2 = (.granted (z.readyNow e.now) z.fault,
             [{ node := h.node, cls := h.cls, entry := { zone := z.zone, tag := h.tag, reason := .preempted } }])
      ∧ ∃ z', r.1.zone z.zone = some z' ∧ z'.waiting = z.waiting ∧ z'.state = z.state ∧ z'.holder = some
          { node := a.node, tag := a.tag, cls := a.cls, source := a.source, duration := a.duration,
            expiry := e.now + sec (a.duration + 5) })
    ∧ (h.cls.rank ≤ a.cls.rank → z.waiting.length < waitingCapacity →
      r.2 = (.queued (positionOf a.node a.tag (placeWaiter entry z.waiting)), [])
      ∧ r.1.zone z.zone = some { z with waiting := placeWaiter entry z.waiting } ∧ r.1.zones.arrivals = w.zones.arrivals + 1)
    ∧ (h.cls.rank ≤ a.cls.rank → z.waiting.length = waitingCapacity →
      ∃ x ∈ z.waiting, (∀ y ∈ z.waiting, y.cls.rank < x.cls.rank ∨ (y.cls = x.cls ∧ y.order ≤ x.order))
        ∧ (a.cls.rank < x.cls.rank →
            r.2.2 = [{ node := x.node, cls := x.cls, entry := { zone := z.zone, tag := x.tag, reason := .displaced } }]
            ∧ ∃ z', r.1.zone z.zone = some z' ∧ z'.waiting = placeWaiter entry (z.waiting.filter (fun y => y ≠ x)))
        ∧ (x.cls.rank ≤ a.cls.rank → r = (w, .denied .busy, [])))

/-- A ZONE-LEAVE of the holder: with nobody waiting the zone enters HOLDING with its hold timer; with a head that passes
the tests that head becomes the holder and is told GRANTED. -/
def Obligations.LeaveMovesTheZoneOn : Prop :=
  ∀ (s : State) (f : Frame) (rest : List Frame) (tag zone : Nat) (z : ZoneRec) (h : Holder), s.rested → s.passes f rest →
    f.payload = .zoneLeave tag [zone] → s.env.onLine → s.ws.zone zone = some z → z.wf → z.holder = some h →
    h.node = f.source → h.tag = tag →
    (z.waiting = [] → 0 < s.env.part.cfg.settings.hold →
      ∃ t, exec .zoneLeave s = .next t ∧ t.env = s.env
        ∧ t.ws.zone zone = some { z with holder := none, settle := none, state := .holding,
                                         hold := some (s.env.now + sec s.env.part.cfg.settings.hold) }
        ∧ t.ws.line.tx = s.ws.line.tx ∧ t.ws.jobs = s.ws.jobs)
    ∧ (∀ x behind, z.waiting = x :: behind → deniedBy s.env s.ws z x.ask = none → x.node ≠ s.env.part.node → s.ws.room →
      let promoted : Holder :=
        { node := x.node, tag := x.tag, cls := x.cls, source := x.source, duration := x.duration,
          expiry := s.env.now + sec (x.duration + 5) }
      ∃ t, exec .zoneLeave s = .next t ∧ t.env = s.env
        ∧ t.ws.zone zone = some { z with waiting := behind, holder := some promoted }
        ∧ t.ws.line.tx = queuedAmong
            { cls := x.cls, source := s.env.part.node, dest := x.node, alt := false,
              payload := .zoneAnswer x.tag [(zone, .granted (z.readyNow s.env.now) z.fault)] } s.ws.line.tx)

/-- At the end of the settle time a zone in SETTLING speaks, at the attenuation for its holder's class. At the expiry
of a remote holder's grant it is revoked EXPIRED and the zone moves on; at the expiry of a remote waiting entry's wait
timer it is removed and revoked WAIT-EXPIRED. -/
def Obligations.SettleExpiryAndWaitTimersOfAZone : Prop :=
  (∀ (s : State) (zone : Nat) (z : ZoneRec) (h : Holder), s.rested → s.ws.zone zone = some z → z.state = .settling →
     z.settle.isSome = true → z.holder = some h →
     ∃ t, exec (.settleTimerExpiry zone) s = .next t
       ∧ t.ws.zone zone = some { z with state := .speaking, settle := none, hold := none }
       ∧ t.ws.level zone = (s.ws.level zone).map (fun l => { l with attenuation := l.attenuationFor h.cls })
       ∧ (∀ other, other ≠ zone → t.ws.zone other = s.ws.zone other ∧ t.ws.level other = s.ws.level other)
       ∧ t.env = s.env ∧ t.ws.jobs = s.ws.jobs ∧ t.ws.channels = s.ws.channels ∧ t.ws.line = s.ws.line
       ∧ t.ws.report = s.ws.report)
  ∧ (∀ (s : State) (zone : Nat) (z : ZoneRec), s.rested → s.env.onLine → s.ws.room → s.ws.zone zone = some z → z.wf →
       (∀ h, z.holder = some h → h.node ≠ s.env.part.node → z.waiting = [] → 0 < s.env.part.cfg.settings.hold →
         ∃ t, exec (.expiryTimerExpiry zone) s = .next t ∧ t.env = s.env ∧ t.ws.jobs = s.ws.jobs
           ∧ t.ws.zone zone = some { z with holder := none, settle := none, state := .holding,
                                            hold := some (s.env.now + sec s.env.part.cfg.settings.hold) }
           ∧ t.ws.line.tx = queuedAmong
               { cls := h.cls, source := s.env.part.node, dest := h.node, alt := false,
                 payload := .zoneRevoke [{ zone := zone, tag := h.tag, reason := .expired }] } s.ws.line.tx)
       ∧ (∀ x, z.waiting.find? (fun y => y.node = x.node && y.tag = x.tag) = some x → x.node ≠ s.env.part.node →
         ∃ t, exec (.waitTimerExpiry zone x.node x.tag) s = .next t ∧ t.env = s.env ∧ t.ws.jobs = s.ws.jobs
           ∧ t.ws.zone zone = some { z with waiting := z.waiting.filter (fun y => !(y.node = x.node && y.tag = x.tag)) }
           ∧ t.ws.line.tx = queuedAmong
               { cls := x.cls, source := s.env.part.node, dest := x.node, alt := false,
                 payload := .zoneRevoke [{ zone := zone, tag := x.tag, reason := .waitExpired }] } s.ws.line.tx))

/-- At the hold timer's expiry a zone in HOLDING enters IDLE with AMP-ON off; an ask before it is granted with ready delay
0, and one after it with a full settle. -/
def Obligations.HoldTimerReturnsTheZoneToIdle : Prop :=
  ∀ (s : State) (zone : Nat) (z : ZoneRec), s.rested → s.ws.zone zone = some z → z.wf → z.state = .holding →
    ∃ t, exec (.holdTimerExpiry zone) s = .next t
      ∧ t.ws.zone zone = some { z with state := .idle, hold := none }
      ∧ (∀ output ∈ z.outputs, t.ws.zoneOfOutput output = some { z with state := .idle, hold := none } →
          ampOnLine t.ws output = false)
      ∧ (∀ other, other ≠ zone → t.ws.zone other = s.ws.zone other)
      ∧ t.env = s.env ∧ t.ws.jobs = s.ws.jobs ∧ t.ws.line = s.ws.line
      ∧ ∀ a : Ask, deniedBy s.env s.ws z a = none →
          (s.ws.askRecord s.env z a).2.1 = .granted 0 z.fault
          ∧ (t.ws.askRecord t.env { z with state := .idle, hold := none } a).2.1 =
              .granted s.env.part.cfg.settings.settle z.fault

/-- A change of a line-fault input: every zone record's flag shows whether one of its outputs has a fault, and ZONE-LINE
stands in the fault set for exactly the records with the flag. -/
def Obligations.LineFaultFollowsTheInput : Prop :=
  ∀ (s : State) (output : Nat) (level : Bool), s.rested → s.ws.room → (s.ws.zones.recs.map (·.zone)).Nodup →
    ∃ t, exec (.lineFaultInputChange output level) s = .next t
      ∧ t.env = { s.env with pins := { s.env.pins with zflt := s.env.pins.zflt.set output level } }
      ∧ t.ws.zones.recs = s.ws.zones.recs.map (fun z => { z with fault := z.outputs.any (levelAt t.env.pins.zflt) })
      ∧ (∀ z ∈ t.ws.zones.recs, z.zone ∈ t.ws.report.faults.zoneLine ↔ z.fault = true)
      ∧ t.ws.jobs = s.ws.jobs ∧ t.ws.levels = s.ws.levels ∧ t.ws.channels = s.ws.channels

/-! ### Trunks and gathering (chapter 7) -/

/-- SEIZE and FREE frames of other nodes on the trunk view: a SEIZE takes a FREE entry for its declared hold plus 5 s and
is void on a HELD one; a FREE frees the entry its sender holds and no other. -/
def Obligations.SeizeAndFreeMoveTheView : Prop :=
  (∀ (s : State) (f : Frame) (rest : List Frame) (trunk tag hold : Nat), s.rested → s.passes f rest →
    f.payload = .seize trunk tag hold →
    let held : TrunkHold := { node := f.source, tag := tag, expiry := s.env.now + sec (hold + 5) }
    exec .seize s = .next (s.withWs { s.taken rest with
      trunks := if s.ws.trunk trunk = none then s.ws.trunks.set trunk (some held) else s.ws.trunks }))
  ∧ (∀ (s : State) (f : Frame) (rest : List Frame) (trunk tag : Nat), s.passes f rest → f.payload = .free trunk tag →
      ∃ t, exec .free s = .next t ∧ t.env = s.env
        ∧ t.ws.trunks = (match s.ws.trunk trunk with
            | some h => if h.node = f.source then s.ws.trunks.set trunk none else s.ws.trunks
            | none => s.ws.trunks))

/-- When the expiry timer of a HELD entry runs out the entry becomes FREE, whoever holds it. -/
def Obligations.ViewExpiryFreesTheEntry : Prop :=
  ∀ (s : State) (trunk : Nat) (h : TrunkHold), s.ws.trunk trunk = some h →
    ∃ t, exec (.trunkViewExpiry trunk) s = .next t ∧ t.ws.trunk trunk = none
      ∧ (∀ other, other ≠ trunk → t.ws.trunk other = s.ws.trunk other) ∧ t.env = s.env

/-- At the end of the wait between trunk rounds the job seizes the lowest candidate trunk; at the end of a backoff that
was no trunk conflict it asks its remote zone again in zone round 2, with a new alternation bit (and the model's own serial
number of the ask, log 45). -/
def Obligations.TrunkWaitAndBackoffTryAgain : Prop :=
  (∀ (s : State) (tag t : Nat) (r : JobRec), s.rested → s.env.onLine → s.ws.room → s.ws.liveJob tag = some r →
    r.gathering.phase = .trunk → r.gathering.trunkWait.isSome = true →
    [0, 1, 2, 3].find? (s.ws.candidate s.env { r.gathering with tried := [] }) = some t →
    let w := s.ws.modGather tag (fun g => { g with trunkWait := none, trunkRound := 2, tried := [t], seizing := some t })
    exec (.trunkWaitTimerExpiry tag) s = .next (s.withWs { w with line := { s.ws.line with
      tx := queuedAmong
        { cls := r.cls, source := s.env.part.node, dest := 0, alt := false, payload := .seize t tag r.gathering.hold }
        s.ws.line.tx } }))
  ∧ (∀ (s : State) (t home : Nat) (r : JobRec) (g : Grant), s.rested → s.env.onLine → s.ws.room → s.ws.jobs.recs = [r] →
      r.state.inProgress = true → r.gathering.phase = .backoff → r.gathering.backoff.isSome = true →
      r.gathering.reseize = false → r.trunk = some t → r.gathering.grants = [g] → g.required = true → g.isDropped = false →
      s.ws.homes g.zone = false → s.env.homeOf g.zone = some home →
      exec (.backoffTimerExpiry r.tag) s = .next (s.withWs { s.ws with
        jobs := { s.ws.jobs with recs := [{ r with gathering := { r.gathering with
          backoff := none, zoneRound := 2, phase := .zones,
          grants := [{ g with home := .remote home, verdict := .waiting }],
          gather := some (s.env.now + sec s.env.part.cfg.settings.gather), ask := some (s.ws.line.asks + 1) } }] },
        line := { s.ws.line with
          askAlt := !s.ws.line.askAlt, asks := s.ws.line.asks + 1,
          tx := enqueueFrame
            { frame := { cls := r.cls, source := s.env.part.node, dest := 0, alt := !s.ws.line.askAlt,
                         payload := .zoneAsk r.tag t r.gathering.hold [g.zone] },
              purpose := .ask (s.ws.line.asks + 1), sending := false, doomed := false } s.ws.line.tx } }))

/-- A SEIZE echo that finds the view FREE and no carrier wins the trunk for its job, whose zone round begins: its remote
zone is asked with a new alternation bit (and the model's own serial number of the ask, log 45). -/
def Obligations.WonTrunkBeginsTheZoneRound : Prop :=
  ∀ (s : State) (x : EchoPlace) (trunk hold home : Nat) (r : JobRec) (g : Grant), s.rested → s.env.onLine → s.ws.room →
    s.echoDue x → s.ws.jobs.recs = [r] → x.frame.payload = .seize trunk r.tag hold → r.state.inProgress = true →
    r.gathering.seizing = some trunk → s.ws.trunk trunk = none → carrierOn s.env s.ws trunk = false →
    r.gathering.grants = [g] → g.required = true → g.isDropped = false → s.ws.homes g.zone = false →
    s.env.homeOf g.zone = some home →
    exec .seizeEcho s = .next (s.withWs { s.ws with
      jobs := { s.ws.jobs with recs := [{ r with
        trunk := some trunk,
        gathering := { r.gathering with
          seizing := none, phase := .zones, grants := [{ g with home := .remote home, verdict := .waiting }],
          gather := some (s.env.now + sec s.env.part.cfg.settings.gather), ask := some (s.ws.line.asks + 1) } }] },
      trunks := s.ws.trunks.set trunk (some { node := x.frame.source, tag := r.tag, expiry := s.env.now + sec (hold + 5) }),
      line := { s.ws.line with
        echo := none, askAlt := !s.ws.line.askAlt, asks := s.ws.line.asks + 1,
        tx := enqueueFrame
          { frame := { cls := r.cls, source := s.env.part.node, dest := 0, alt := !s.ws.line.askAlt,
                       payload := .zoneAsk r.tag trunk r.gathering.hold [g.zone] },
            purpose := .ask (s.ws.line.asks + 1), sending := false, doomed := false } s.ws.line.tx } })

/-- A GRANTED answer for the one zone a round still wants makes the gathering READY until the ready instant and the record
READY-WAIT; a QUEUED answer is recorded and the round goes on. DENIED-TRUNK for an entry the round wants, GRANTED or not, is
a trunk conflict: round 1 fails into BACKOFF, the trunk is given up with a FREE and excluded, and a new seizure is due. That
the entry is DENIED first, also one GRANTED before, and so sends no ZONE-LEAVE, is the model's choice (log 30). -/
def Obligations.AnswersCompleteTheRound : Prop :=
  (∀ (s : State) (f : Frame) (rest : List Frame) (r : JobRec) (g : Grant) (v : Verdict), s.rested → s.passes f rest →
    s.ws.jobs.recs = [r] → r.state = .gathering → r.gathering.phase = .zones → r.gathering.grants = [g] →
    g.required = true → g.verdict = .waiting → g.home = .remote f.source → f.payload = .zoneAnswer r.tag [(g.zone, v)] →
    let answers := r.gathering.answers.filter (fun a => a.1 ≠ f.source)
    (∀ ready mark, v = .granted ready mark → 0 < ready →
      exec .zoneAnswer s = .next (s.withWs { s.taken rest with jobs := { s.ws.jobs with recs := [{ r with
        state := .readyWait,
        flags := if mark = true then { r.flags with zoneFaulted := true } else r.flags,
        gathering := { r.gathering with
          phase := .ready, gather := none, ready := some (s.env.now + ms ready), answers := answers,
          grants := [{ g with verdict := .granted (s.env.now + ms ready) mark }] } }] } }))
    ∧ (∀ position, v = .queued position →
      exec .zoneAnswer s = .next (s.withWs { s.taken rest with jobs := { s.ws.jobs with recs := [{ r with
        gathering := { r.gathering with
          answers := answers, grants := [{ g with verdict := .queued position }] } }] } })))
  ∧ (∀ (s : State) (f : Frame) (rest : List Frame) (r : JobRec) (g : Grant) (trunk : Nat), s.rested → s.env.onLine →
      s.ws.room → s.passes f rest → s.ws.jobs.recs = [r] →
      ((r.state = .gathering ∧ r.gathering.phase = .zones) ∨ (r.state = .readyWait ∧ r.gathering.phase = .ready)) →
      r.gathering.zoneRound = 1 → r.trunk = some trunk → r.gathering.grants = [g] → g.wanted = true →
      f.payload = .zoneAnswer r.tag [(g.zone, .denied .trunk)] →
      ∃ t r', exec .zoneAnswer s = .next t ∧ t.env = s.env ∧ t.ws.jobs.recs = [r'] ∧ r'.tag = r.tag ∧ r'.state = .gathering
        ∧ r'.trunk = none ∧ r'.gathering.phase = .backoff ∧ r'.gathering.excluded = some trunk
        ∧ r'.gathering.reseize = true ∧ r'.gathering.backoff = some (s.env.now + ms (500 + 50 * s.env.part.node))
        ∧ t.ws.line.tx = queuedAmong
          { cls := r.cls, source := s.env.part.node, dest := 0, alt := false, payload := .free trunk r.tag } s.ws.line.tx)

/-- A zone round that fails backs off for 500 ms plus 50 ms for each node number, and the record is again GATHERING: at
the gather timer and at the start timer its wanted zone is given back with a ZONE-LEAVE; without an answer from the home of
its required zone that zone is denied, and no leave is sent. A failed second zone round exhausts the rounds: the job ends
NO-ZONE and is counted as failed, and its JOB-REPORT names that code (when the node is on the line, the mask sends it and
the queue has room). -/
def Obligations.FailedRoundsBackOffOrEnd : Prop :=
  (∀ (s : State) (r : JobRec) (g : Grant) (home : Nat), s.rested → s.env.onLine → s.ws.room → s.ws.jobs.recs = [r] →
     r.gathering.zoneRound = 1 → r.gathering.grants = [g] → g.required = true → g.home = .remote home →
     let record : JobRec := { r with
       state := .gathering,
       gathering := { r.gathering with
         phase := .backoff, grants := [{ g with verdict := .left }], answers := [], gather := none, ready := none,
         startTimer := none, backoff := some (s.env.now + ms (500 + 50 * s.env.part.node)) } }
     let works : Works := { s.ws with jobs := { s.ws.jobs with recs := [record] } }
     let left : Works := { works with line := { s.ws.line with
       tx := queuedAmong
         { cls := r.cls, source := s.env.part.node, dest := 0, alt := false, payload := .zoneLeave r.tag [g.zone] }
         s.ws.line.tx } }
     (r.state = .gathering → r.gathering.phase = .zones → g.verdict = .waiting →
       (∃ a ∈ r.gathering.answers, a.1 = home) →
       exec (.answerTimerExpiry r.tag home) s = .next (s.withWs works))
     ∧ (r.state = .gathering → r.gathering.phase = .zones → r.gathering.gather.isSome = true → g.wanted = true →
       exec (.gatherTimerExpiry r.tag) s = .next (s.withWs left))
     ∧ (r.state = .readyWait → r.gathering.phase = .ready → r.gathering.startTimer.isSome = true → g.wanted = true →
       exec (.startTimerExpiry r.tag) s = .next (s.withWs left)))
  ∧ (∀ (s : State) (r : JobRec), s.rested → s.ws.report.wf → s.ws.jobs.recs = [r] → r.state.inProgress = true →
       r.ending = none → r.gathering.zoneRound = 2 → r.gathering.phase = .zones → r.gathering.gather.isSome = true →
       (∀ g ∈ r.gathering.grants, g.home ≠ .local) →
       ∃ t, exec (.gatherTimerExpiry r.tag) s = .next t ∧ t.ws.jobs.recs = [] ∧ t.env = s.env
         ∧ t.ws.counter .jobsFailed = saturate (s.ws.counter .jobsFailed)
         ∧ (s.reportable r → t.reports r.tag .noZone))

/-- When the ready timer runs out without carrier on the job's trunk the start timer runs; when the channel's start
condition holds the airing begins at once, and the channel drives the job's trunk. -/
def Obligations.ReadyDelayPassedStartsTheAiring : Prop :=
  ∀ (s : State) (r : JobRec) (n : Nat), s.rested → s.node.sized → n < 2 → s.ws.jobs.recs = [r] → r.state = .readyWait →
    r.channel = some n → r.gathering.phase = .ready → r.gathering.ready.isSome = true →
    (∀ g ∈ r.gathering.grants, g.isGranted = true) →
    (∀ t, r.trunk = some t → carrierOn s.env s.ws t = false) →
    (s.ws.startCondition s.env n = false →
      exec (.readyTimerExpiry r.tag) s = .next (s.withWs { s.ws with jobs := { s.ws.jobs with recs := [{ r with
        gathering := { r.gathering with
          ready := none, startTimer := some (s.env.now + sec s.env.part.cfg.settings.gather) } }] } }))
    ∧ (s.ws.startCondition s.env n = true →
      ∃ t r', exec (.readyTimerExpiry r.tag) s = .next t ∧ t.ws.jobs.recs = [r'] ∧ r'.tag = r.tag ∧ r'.state = .airing
        ∧ r'.gathering.phase = .airing ∧ r'.zonesAired = r.gathering.grants.length
        ∧ (t.ws.channel n).state = .playing ∧ (t.ws.channel n).transmit = r.trunk
        ∧ (t.ws.channel n).fifo = (s.ws.channel n).fifo ∧ (t.ws.channel n).played = 0)

/-- A revocation in a ZONE-REVOKE frame: an optional zone is dropped and missed; a required zone lost to a better class
sends the job to its one retry, and lost otherwise it ends the job. A required zone whose home answers the airing job with
QUEUED or DENIED-TRUNK ends the airing too, as a zone lost does (the model's choice of the way, log 51). -/
def Obligations.RevocationsReachTheJob : Prop :=
  (∀ (s : State) (f : Frame) (rest : List Frame) (r : JobRec) (g : Grant) (reason : Reason), s.rested → s.passes f rest →
    f.payload = .zoneRevoke [{ zone := g.zone, tag := r.tag, reason := reason }] → s.ws.jobs.recs = [r] →
    r.state = .airing → r.gathering.phase = .airing → r.gathering.grants = [g] → g.wanted = true → g.home ≠ .local →
    (g.required = false →
      exec .zoneRevoke s = .next (s.withWs { s.taken rest with jobs := { s.ws.jobs with recs := [{ r with
        flags := { r.flags with optionalMissed := true },
        gathering := { r.gathering with grants := [{ g with verdict := .dropped }] } }] } }))
    ∧ (g.required = true → reason = .preempted → r.ending = none → r.retries = 1 →
      ∃ t r', exec .zoneRevoke s = .next t ∧ t.ws.jobs.recs = [r'] ∧ r'.tag = r.tag ∧ r'.state = .retryWait
        ∧ r'.retries = 0 ∧ r'.channel = none ∧ r'.trunk = none
        ∧ r'.retryTimer = some (s.env.now + ms (500 + 50 * s.env.part.node)))
    ∧ (g.required = true → reason ≠ .preempted → r.ending = none →
      ∃ t, exec .zoneRevoke s = .next t ∧ t.ws.jobs.recs = [] ∧ t.env = s.env))
  ∧ (∀ (s : State) (f : Frame) (rest : List Frame) (r : JobRec) (g : Grant) (v : Verdict), s.rested → s.passes f rest →
      f.payload = .zoneAnswer r.tag [(g.zone, v)] → s.ws.jobs.recs = [r] → r.state = .airing → r.gathering.phase = .airing →
      r.ending = none → r.gathering.grants = [g] → g.required = true → g.isGranted = true → g.home ≠ .local →
      (v = .denied .trunk ∨ ∃ position, v = .queued position) →
      ∃ t, exec .zoneAnswer s = .next t ∧ t.ws.jobs.recs = [] ∧ t.env = s.env)

/-! ### Levels (chapter 8) -/

/-- A reading cycle gives every level entry the result of its position, and a silence timer's expiry is taken as a faulty
reading; SENSOR stands in the fault set for exactly the entries in FAULT. The reading of each position is an event of its
own: one that changes the fault set advances the fault sequence number by one, and one that does not leaves it. -/
def Obligations.ReadingsAndSilenceReachTheLevels : Prop :=
  (∀ s : State, s.rested → s.ws.line.tx.length + 8 ≤ txCapacity → s.env.part.state ≠ .start →
    (s.ws.levels.map (·.zone)).Nodup →
    let follows (t : State) : Prop :=
      (∀ l ∈ t.ws.levels, l.zone ∈ t.ws.report.faults.sensor ↔ l.sensor = .fault)
        ∧ t.env = s.env ∧ t.ws.jobs = s.ws.jobs ∧ t.ws.zones = s.ws.zones ∧ t.ws.channels = s.ws.channels
    (∀ readings, readings.length = 8 → ∃ t, exec (.ambientReadingCycle readings) s = .next t ∧ follows t
      ∧ t.ws.levels = s.ws.levels.map (fun l => match (readings[l.reading]?).join with
          | none => l
          | some v =>
            let l' := { l with silence := s.env.now + sec 10 }
            if 40 ≤ v ∧ v ≤ 240 then l'.good v else l'.faulted))
    ∧ (∀ zone, ∃ t, exec (.silenceTimerExpiry zone) s = .next t ∧ follows t
      ∧ t.ws.levels = s.ws.levels.map (fun l =>
          if l.zone = zone then { l.faulted with silence := s.env.now + sec 10 } else l)))
  ∧ (∀ (e : Env) (w : Works) (position : Nat) (result : Option Nat),
      let read := w.readPosition e position result
      read.report.seq =
        if read.report.faults = w.report.faults then w.report.seq else (w.report.seq + 1) % 256)

/-- A good reading under an OPEN hold: in TRACKING the estimate moves one eighth of the way to eight times the reading,
truncated toward zero; in AWAITING and at a recovery it becomes eight times the reading, and the entry is TRACKING. The
estimate stays within 320..1,920. The estimate stands while the hold is not OPEN, whatever is read. -/
def Obligations.GoodReadingsMoveAnOpenEstimate : Prop :=
  (∀ (l : LevelEntry) (r : Nat), l.hold = .opened →
     (∀ a, l.sensor = .tracking → l.estimate = some a →
       (l.good r) = { l with estimate := some (((a : Int) + Int.tdiv (8 * (r : Int) - (a : Int)) 8).toNat) }
       ∧ (320 ≤ a → a ≤ 1920 → 40 ≤ r → r ≤ 240 → ∃ b, (l.good r).estimate = some b ∧ 320 ≤ b ∧ b ≤ 1920
           ∧ (b : Int) = (a : Int) + Int.tdiv (8 * (r : Int) - (a : Int)) 8))
     ∧ (l.sensor = .awaiting → l.good r = { l with estimate := some (8 * r), sensor := .tracking })
     ∧ (l.sensor = .fault → l.good r = { l with estimate := some (8 * r), sensor := .tracking, pendingDefault := false }))
  ∧ (∀ (l : LevelEntry) (now : Instant) (reading : Option Nat), l.hold ≠ .opened →
       (l.reads now reading).estimate = l.estimate ∧ (l.silent now).estimate = l.estimate
         ∧ (l.reads now reading).attenuation = l.attenuation)

/-- The release timer's expiry with a default pending opens the hold and applies the default, in FAULT.  A recovery
reading taken first clears the default instead and leaves the estimate, and the next good reading sets it to eight times
itself; an assertion of AMP-ON in RELEASING leaves the default pending. -/
def Obligations.ReleaseAppliesThePendingDefault : Prop :=
  (∀ (s : State) (zone : Nat) (l : LevelEntry), s.rested → s.ws.level zone = some l → l.release.isSome = true →
    l.pendingDefault = true →
    ∃ t, exec (.releaseTimerExpiry zone) s = .next t
      ∧ t.ws.level zone = some { l with hold := .opened, release := none, estimate := some (16 * l.settings.ambient / 2),
                                        pendingDefault := false }
      ∧ (∀ other, other ≠ zone → t.ws.level other = s.ws.level other)
      ∧ t.env = s.env ∧ t.ws.jobs = s.ws.jobs ∧ t.ws.zones = s.ws.zones ∧ t.ws.report = s.ws.report ∧ t.ws.line = s.ws.line)
  ∧ (∀ (l : LevelEntry) (now : Instant) (r r' : Nat), l.sensor = .fault → l.hold = .releasing → l.pendingDefault = true →
      40 ≤ r → r ≤ 240 → 40 ≤ r' → r' ≤ 240 →
      let first := l.reads now (some r)
      first.sensor = .awaiting ∧ first.pendingDefault = false ∧ first.estimate = l.estimate
      ∧ (first.openHold.reads now (some r')).estimate = some (8 * r')
      ∧ (first.openHold.reads now (some r')).sensor = .tracking
      ∧ (l.openHold.reads now (some r)).estimate = some (8 * r) ∧ (l.openHold.reads now (some r)).sensor = .tracking)
  ∧ ∀ l : LevelEntry, l.ampAsserted.pendingDefault = l.pendingDefault

/-- The attenuation for a class in three stages: the effective ambient (the estimate, or the default ambient while the
estimate is absent) rounded up to the half-dB plus the margin, clamped to the zone's floor and ceiling, taken from full
level and held within 0..63.5 dB; an ask changes nothing else of the entry, and with consistent settings the level driven is the clamped target. -/
def Obligations.AttenuationInThreeStages : Prop :=
  ∀ (l : LevelEntry) (c : Cls),
    let raw := (l.effectiveAmbient + 7) / 8 + l.settings.margin c
    let target := if raw < l.settings.floor then l.settings.floor
                  else if l.settings.ceiling < raw then l.settings.ceiling else raw
    (∀ a, l.estimate = some a → l.effectiveAmbient = a) ∧ (l.estimate = none → l.effectiveAmbient = 16 * l.settings.ambient / 2)
    ∧ l.attenuationFor c = min 127 (l.settings.full - target) ∧ l.attenuationFor c ≤ 127
    ∧ (levelsConsistent l.settings = true → l.settings.full - l.attenuationFor c = target
        ∧ l.settings.floor ≤ target ∧ target ≤ l.settings.ceiling)
    ∧ ∀ (w : Works), w.level l.zone = some l →
        (w.askLevel l.zone c).level l.zone = some { l with attenuation := l.attenuationFor c }

/-- The FAULT output: asserted while the fault set holds a condition, and while node number 0 holds the node in START; off
at start reset. -/
def Obligations.FaultOutputFollowsTheSet : Prop :=
  (∀ (e : Env) (w : Works), faultOutput e w = true ↔
    (w.report.faults ≠ { flashPort := false, safeConfig := false, isolatedRecovered := false, clockUnknown := false,
                         zoneLine := [], sensor := [] }
      ∨ (e.part.state = .start ∧ e.part.phase = .heldByNodeZero)))
  ∧ faultOutput State.reset.env State.reset.ws = false

/-! ### Frames on the line (chapter 11) -/

/-- A frame as the tables allow, built into bytes, is good and decodes to itself: every field of every kind of frame,
at every value the tables admit. -/
def Obligations.FramesDecodeAsBuilt : Prop :=
  ∀ f : Frame, f.inRange → frameGood (encodeFrame f) = true ∧ decodeFrame (encodeFrame f) = some f

/-! ### What a command leaves unchanged -/

/-- Frames of what the blocks only read: clock, call table, faces, participation, pins, peers and map change only at the
commands that name them. That the pins stand through START_RESET (log 7) and the carrier levels change at SAMPLE_PERIOD
alone (log 6) are the model's choices. -/
def Obligations.CommandsLeaveWhatTheyDoNotName : Prop :=
  ∀ (c : Instr) (s t : State), exec c s = .next t →
    (match c with
      | .startReset | .time | .tick => True
      | _ => t.env.clock = s.env.clock)
    ∧ (match c with
      | .startReset | .configImageTaken _ | .srvPulse | .serviceReset | .time | .call | .tick | .retentionTimerExpiry _
      | .dwellTimerExpiry _ | .presenceInputChange _ _ | .debounceTimerExpiry _ => True
      | _ => t.env.calls = s.env.calls ∧ t.env.faces = s.env.faces)
    ∧ (match c with
      | .startReset | .resetRelease _ _ | .configImageTaken _ => True
      | _ => t.env.part.node = s.env.part.node ∧ t.env.part.setB = s.env.part.setB ∧ t.env.part.safe = s.env.part.safe
          ∧ t.env.part.cfg = s.env.part.cfg ∧ t.env.part.phase = s.env.part.phase)
    ∧ (match c with
      | .startReset | .configImageTaken _ | .listenTimerExpiry | .quiet | .wake | .ownFrameSpoiled _ | .frameReceived _ _
      | .echo | .isolationProfileEcho => True
      | _ => t.env.part.state = s.env.part.state)
    ∧ (match c with
      | .presenceInputChange _ _ | .triggerRisingEdge _ | .triggerFallingEdge _ | .samplePeriod _
      | .lineFaultInputChange _ _ => True
      | _ => t.env.pins = s.env.pins)
    ∧ (match c with
      | .startReset | .frameReceived _ _ | .profile => True
      | _ => t.env.peers = s.env.peers ∧ t.env.homes = s.env.homes)

/-- Frames of the works: receive FIFO, trunk view, fault set and directory cache change only at the commands that name
them, and no counter falls but at a reset. -/
def Obligations.CommandsLeaveFifoViewAndFaults : Prop :=
  ∀ (c : Instr) (s t : State), exec c s = .next t →
    (match c with
      | .startReset | .srvPulse | .serviceReset | .ownFrameSpoiled _ | .frameReceived _ _ | .quiet | .wake | .replayLast
      | .time | .call | .announce | .statusQuery | .profile | .seize | .free | .zoneAsk | .zoneLeave | .zoneAnswer
      | .zoneRevoke => True
      | _ => t.ws.line.rx = s.ws.line.rx)
    ∧ (match c with
      | .startReset | .srvPulse | .serviceReset | .ownFrameSpoiled _ | .frameReceived _ _ | .echo | .seizeEcho | .seize
      | .free | .trunkViewExpiry _ => True
      | _ => t.ws.trunks = s.ws.trunks)
    ∧ (match c with
      | .startReset | .configImageTaken _ | .echo | .isolationProfileEcho | .profileEcho | .time | .templateReadComplete _
      | .directoryReadComplete _ | .audioReadComplete _ | .flashReadNoResponse | .lineFaultInputChange _ _
      | .ambientReadingCycle _ | .silenceTimerExpiry _ => True
      | _ => t.ws.report.faults = s.ws.report.faults ∧ t.ws.report.seq = s.ws.report.seq)
    ∧ (match c with
      | .startReset | .srvPulse | .serviceReset | .directoryReadComplete _ | .flashReadNoResponse => True
      | _ => t.ws.flash.cache = s.ws.flash.cache)
    ∧ (match c with
      | .startReset | .srvPulse | .serviceReset => True
      | _ => s.ws.report.wf → ∀ k, s.ws.counter k ≤ t.ws.counter k)

/-! ### Invariants every step keeps -/

/-- The clock stays within its range, and so do the TIME frames of the receive FIFO. -/
def Obligations.StepKeepsTheClockInRange : Prop :=
  ∀ s t : State, s.env.clock.wf → (∀ f ∈ s.ws.line.rx, f.timeInRange) → step s = .next t →
    t.env.clock.wf ∧ ∀ f ∈ t.ws.line.rx, f.timeInRange

/-- The transmit queue keeps at most 12 frames in class order, the receive FIFO at most 8, the spoil run at most 16 and
the own-spoil count at most 8. The 16 counters stay within 0..65,535 and the fault sequence number within 0..255. -/
def Obligations.StepKeepsQueuesAndCounters : Prop :=
  (∀ s t : State, s.ws.line.queueWf → s.ws.line.countsWf → step s = .next t → t.ws.line.queueWf ∧ t.ws.line.countsWf)
  ∧ (∀ s t : State, s.ws.report.wf → step s = .next t → t.ws.report.wf)

/-- Every zone record keeps what its state allows: a holder exactly in SETTLING and SPEAKING, the settle timer exactly in
SETTLING and the hold timer exactly in HOLDING, and a waiting list of at most 6 entries, empty without a holder, in class
order and within a class in arrival order, with no requester node and job tag more than once among holder and list. Attenuations stay within 0..63.5 dB and estimates within 320..1,920. -/
def Obligations.StepKeepsZonesAndLevels : Prop :=
  (∀ s t : State, s.ws.zones.wf → step s = .next t → t.ws.zones.wf)
  ∧ (∀ s t : State, (∀ l ∈ s.ws.levels, l.wf) → step s = .next t → ∀ l ∈ t.ws.levels, l.wf)

/-- The Job Table keeps at most 16 records, and no two of them share a tag. -/
def Obligations.StepKeepsTheJobTags : Prop :=
  ∀ s t : State, s.ws.jobs.wf → step s = .next t → t.ws.jobs.wf

/-- Every table keeps its size, and every call id stands in at most one slot. -/
def Obligations.StepKeepsSizesAndCallIds : Prop :=
  ∀ s t : State, s.node.sized → step s = .next t →
    t.node.sized ∧ (s.env.idsUnique → t.env.idsUnique)

/-- The machine right after reset has every invariant. -/
def Obligations.ResetHasTheInvariants : Prop :=
  State.reset.env.clock.wf ∧ (∀ f ∈ State.reset.ws.line.rx, f.timeInRange) ∧ State.reset.ws.line.queueWf
    ∧ State.reset.ws.line.countsWf ∧ State.reset.ws.report.wf ∧ State.reset.ws.zones.wf ∧ State.reset.ws.jobs.wf
    ∧ (∀ l ∈ State.reset.ws.levels, l.wf) ∧ State.reset.node.sized ∧ State.reset.env.idsUnique
end

