-- ==== Sys2Proof/Laws/State.lean ====
section
/-! SUPPORT. What each plain update of the state leaves of every other field: one lemma for each update and field, all true
by unfolding, so that no later proof unfolds a record update. -/

namespace Sys2Proof.Machine

open Sys2Proof

/-! ### `post` -/

@[simp] theorem Works.post_jobs (w : Works) (n : Note) : (w.post n).jobs = w.jobs := rfl
@[simp] theorem Works.post_flash (w : Works) (n : Note) : (w.post n).flash = w.flash := rfl
@[simp] theorem Works.post_channels (w : Works) (n : Note) : (w.post n).channels = w.channels := rfl
@[simp] theorem Works.post_zones (w : Works) (n : Note) : (w.post n).zones = w.zones := rfl
@[simp] theorem Works.post_trunks (w : Works) (n : Note) : (w.post n).trunks = w.trunks := rfl
@[simp] theorem Works.post_levels (w : Works) (n : Note) : (w.post n).levels = w.levels := rfl
@[simp] theorem Works.post_line (w : Works) (n : Note) : (w.post n).line = w.line := rfl
@[simp] theorem Works.post_report (w : Works) (n : Note) : (w.post n).report = w.report := rfl

/-! ### `postAll` -/

@[simp] theorem Works.postAll_jobs (w : Works) (ns : List Note) : (w.postAll ns).jobs = w.jobs := rfl
@[simp] theorem Works.postAll_flash (w : Works) (ns : List Note) : (w.postAll ns).flash = w.flash := rfl
@[simp] theorem Works.postAll_channels (w : Works) (ns : List Note) : (w.postAll ns).channels = w.channels := rfl
@[simp] theorem Works.postAll_zones (w : Works) (ns : List Note) : (w.postAll ns).zones = w.zones := rfl
@[simp] theorem Works.postAll_trunks (w : Works) (ns : List Note) : (w.postAll ns).trunks = w.trunks := rfl
@[simp] theorem Works.postAll_levels (w : Works) (ns : List Note) : (w.postAll ns).levels = w.levels := rfl
@[simp] theorem Works.postAll_line (w : Works) (ns : List Note) : (w.postAll ns).line = w.line := rfl
@[simp] theorem Works.postAll_report (w : Works) (ns : List Note) : (w.postAll ns).report = w.report := rfl

/-! ### `modJob` -/

@[simp] theorem Works.modJob_flash (w : Works) (tag : Nat) (f : JobRec → JobRec) : (w.modJob tag f).flash = w.flash := rfl
@[simp] theorem Works.modJob_channels (w : Works) (tag : Nat) (f : JobRec → JobRec) : (w.modJob tag f).channels = w.channels := rfl
@[simp] theorem Works.modJob_zones (w : Works) (tag : Nat) (f : JobRec → JobRec) : (w.modJob tag f).zones = w.zones := rfl
@[simp] theorem Works.modJob_trunks (w : Works) (tag : Nat) (f : JobRec → JobRec) : (w.modJob tag f).trunks = w.trunks := rfl
@[simp] theorem Works.modJob_levels (w : Works) (tag : Nat) (f : JobRec → JobRec) : (w.modJob tag f).levels = w.levels := rfl
@[simp] theorem Works.modJob_line (w : Works) (tag : Nat) (f : JobRec → JobRec) : (w.modJob tag f).line = w.line := rfl
@[simp] theorem Works.modJob_report (w : Works) (tag : Nat) (f : JobRec → JobRec) : (w.modJob tag f).report = w.report := rfl
@[simp] theorem Works.modJob_agenda (w : Works) (tag : Nat) (f : JobRec → JobRec) : (w.modJob tag f).agenda = w.agenda := rfl

/-! ### `modGather` -/

@[simp] theorem Works.modGather_flash (w : Works) (tag : Nat) (f : Gathering → Gathering) : (w.modGather tag f).flash = w.flash := rfl
@[simp] theorem Works.modGather_channels (w : Works) (tag : Nat) (f : Gathering → Gathering) : (w.modGather tag f).channels = w.channels := rfl
@[simp] theorem Works.modGather_zones (w : Works) (tag : Nat) (f : Gathering → Gathering) : (w.modGather tag f).zones = w.zones := rfl
@[simp] theorem Works.modGather_trunks (w : Works) (tag : Nat) (f : Gathering → Gathering) : (w.modGather tag f).trunks = w.trunks := rfl
@[simp] theorem Works.modGather_levels (w : Works) (tag : Nat) (f : Gathering → Gathering) : (w.modGather tag f).levels = w.levels := rfl
@[simp] theorem Works.modGather_line (w : Works) (tag : Nat) (f : Gathering → Gathering) : (w.modGather tag f).line = w.line := rfl
@[simp] theorem Works.modGather_report (w : Works) (tag : Nat) (f : Gathering → Gathering) : (w.modGather tag f).report = w.report := rfl
@[simp] theorem Works.modGather_agenda (w : Works) (tag : Nat) (f : Gathering → Gathering) : (w.modGather tag f).agenda = w.agenda := rfl

/-! ### `flag` -/

@[simp] theorem Works.flag_flash (w : Works) (tag : Nat) (f : Degraded → Degraded) : (w.flag tag f).flash = w.flash := rfl
@[simp] theorem Works.flag_channels (w : Works) (tag : Nat) (f : Degraded → Degraded) : (w.flag tag f).channels = w.channels := rfl
@[simp] theorem Works.flag_zones (w : Works) (tag : Nat) (f : Degraded → Degraded) : (w.flag tag f).zones = w.zones := rfl
@[simp] theorem Works.flag_trunks (w : Works) (tag : Nat) (f : Degraded → Degraded) : (w.flag tag f).trunks = w.trunks := rfl
@[simp] theorem Works.flag_levels (w : Works) (tag : Nat) (f : Degraded → Degraded) : (w.flag tag f).levels = w.levels := rfl
@[simp] theorem Works.flag_line (w : Works) (tag : Nat) (f : Degraded → Degraded) : (w.flag tag f).line = w.line := rfl
@[simp] theorem Works.flag_report (w : Works) (tag : Nat) (f : Degraded → Degraded) : (w.flag tag f).report = w.report := rfl
@[simp] theorem Works.flag_agenda (w : Works) (tag : Nat) (f : Degraded → Degraded) : (w.flag tag f).agenda = w.agenda := rfl

/-! ### `modGrants` -/

@[simp] theorem Works.modGrants_flash (w : Works) (tag : Nat) (f : List Grant → List Grant) : (w.modGrants tag f).flash = w.flash := rfl
@[simp] theorem Works.modGrants_channels (w : Works) (tag : Nat) (f : List Grant → List Grant) : (w.modGrants tag f).channels = w.channels := rfl
@[simp] theorem Works.modGrants_zones (w : Works) (tag : Nat) (f : List Grant → List Grant) : (w.modGrants tag f).zones = w.zones := rfl
@[simp] theorem Works.modGrants_trunks (w : Works) (tag : Nat) (f : List Grant → List Grant) : (w.modGrants tag f).trunks = w.trunks := rfl
@[simp] theorem Works.modGrants_levels (w : Works) (tag : Nat) (f : List Grant → List Grant) : (w.modGrants tag f).levels = w.levels := rfl
@[simp] theorem Works.modGrants_line (w : Works) (tag : Nat) (f : List Grant → List Grant) : (w.modGrants tag f).line = w.line := rfl
@[simp] theorem Works.modGrants_report (w : Works) (tag : Nat) (f : List Grant → List Grant) : (w.modGrants tag f).report = w.report := rfl
@[simp] theorem Works.modGrants_agenda (w : Works) (tag : Nat) (f : List Grant → List Grant) : (w.modGrants tag f).agenda = w.agenda := rfl

/-! ### `missed` -/

@[simp] theorem Works.missed_flash (w : Works) (tag : Nat) : (w.missed tag).flash = w.flash := rfl
@[simp] theorem Works.missed_channels (w : Works) (tag : Nat) : (w.missed tag).channels = w.channels := rfl
@[simp] theorem Works.missed_zones (w : Works) (tag : Nat) : (w.missed tag).zones = w.zones := rfl
@[simp] theorem Works.missed_trunks (w : Works) (tag : Nat) : (w.missed tag).trunks = w.trunks := rfl
@[simp] theorem Works.missed_levels (w : Works) (tag : Nat) : (w.missed tag).levels = w.levels := rfl
@[simp] theorem Works.missed_line (w : Works) (tag : Nat) : (w.missed tag).line = w.line := rfl
@[simp] theorem Works.missed_report (w : Works) (tag : Nat) : (w.missed tag).report = w.report := rfl
@[simp] theorem Works.missed_agenda (w : Works) (tag : Nat) : (w.missed tag).agenda = w.agenda := rfl

/-! ### `issueTag` -/

@[simp] theorem Works.issueTag_flash (w : Works) : (w.issueTag).flash = w.flash := rfl
@[simp] theorem Works.issueTag_channels (w : Works) : (w.issueTag).channels = w.channels := rfl
@[simp] theorem Works.issueTag_zones (w : Works) : (w.issueTag).zones = w.zones := rfl
@[simp] theorem Works.issueTag_trunks (w : Works) : (w.issueTag).trunks = w.trunks := rfl
@[simp] theorem Works.issueTag_levels (w : Works) : (w.issueTag).levels = w.levels := rfl
@[simp] theorem Works.issueTag_line (w : Works) : (w.issueTag).line = w.line := rfl
@[simp] theorem Works.issueTag_report (w : Works) : (w.issueTag).report = w.report := rfl
@[simp] theorem Works.issueTag_agenda (w : Works) : (w.issueTag).agenda = w.agenda := rfl

/-! ### `createJob` -/

@[simp] theorem Works.createJob_flash (w : Works) (q : JobRequest) (tag : Nat) : (w.createJob q tag).flash = w.flash := rfl
@[simp] theorem Works.createJob_channels (w : Works) (q : JobRequest) (tag : Nat) : (w.createJob q tag).channels = w.channels := rfl
@[simp] theorem Works.createJob_zones (w : Works) (q : JobRequest) (tag : Nat) : (w.createJob q tag).zones = w.zones := rfl
@[simp] theorem Works.createJob_trunks (w : Works) (q : JobRequest) (tag : Nat) : (w.createJob q tag).trunks = w.trunks := rfl
@[simp] theorem Works.createJob_levels (w : Works) (q : JobRequest) (tag : Nat) : (w.createJob q tag).levels = w.levels := rfl
@[simp] theorem Works.createJob_line (w : Works) (q : JobRequest) (tag : Nat) : (w.createJob q tag).line = w.line := rfl
@[simp] theorem Works.createJob_report (w : Works) (q : JobRequest) (tag : Nat) : (w.createJob q tag).report = w.report := rfl
@[simp] theorem Works.createJob_agenda (w : Works) (q : JobRequest) (tag : Nat) : (w.createJob q tag).agenda = w.agenda := rfl

/-! ### `freeRecord` -/

@[simp] theorem Works.freeRecord_flash (w : Works) (tag : Nat) : (w.freeRecord tag).flash = w.flash := rfl
@[simp] theorem Works.freeRecord_channels (w : Works) (tag : Nat) : (w.freeRecord tag).channels = w.channels := rfl
@[simp] theorem Works.freeRecord_zones (w : Works) (tag : Nat) : (w.freeRecord tag).zones = w.zones := rfl
@[simp] theorem Works.freeRecord_trunks (w : Works) (tag : Nat) : (w.freeRecord tag).trunks = w.trunks := rfl
@[simp] theorem Works.freeRecord_levels (w : Works) (tag : Nat) : (w.freeRecord tag).levels = w.levels := rfl
@[simp] theorem Works.freeRecord_line (w : Works) (tag : Nat) : (w.freeRecord tag).line = w.line := rfl
@[simp] theorem Works.freeRecord_report (w : Works) (tag : Nat) : (w.freeRecord tag).report = w.report := rfl
@[simp] theorem Works.freeRecord_agenda (w : Works) (tag : Nat) : (w.freeRecord tag).agenda = w.agenda := rfl

/-! ### `resetJobs` -/

@[simp] theorem Works.resetJobs_flash (w : Works) : (w.resetJobs).flash = w.flash := rfl
@[simp] theorem Works.resetJobs_channels (w : Works) : (w.resetJobs).channels = w.channels := rfl
@[simp] theorem Works.resetJobs_zones (w : Works) : (w.resetJobs).zones = w.zones := rfl
@[simp] theorem Works.resetJobs_trunks (w : Works) : (w.resetJobs).trunks = w.trunks := rfl
@[simp] theorem Works.resetJobs_levels (w : Works) : (w.resetJobs).levels = w.levels := rfl
@[simp] theorem Works.resetJobs_line (w : Works) : (w.resetJobs).line = w.line := rfl
@[simp] theorem Works.resetJobs_report (w : Works) : (w.resetJobs).report = w.report := rfl
@[simp] theorem Works.resetJobs_agenda (w : Works) : (w.resetJobs).agenda = w.agenda := rfl

/-! ### `fixDays` -/

@[simp] theorem Works.fixDays_flash (w : Works) (e : Env) : (w.fixDays e).flash = w.flash := rfl
@[simp] theorem Works.fixDays_channels (w : Works) (e : Env) : (w.fixDays e).channels = w.channels := rfl
@[simp] theorem Works.fixDays_zones (w : Works) (e : Env) : (w.fixDays e).zones = w.zones := rfl
@[simp] theorem Works.fixDays_trunks (w : Works) (e : Env) : (w.fixDays e).trunks = w.trunks := rfl
@[simp] theorem Works.fixDays_levels (w : Works) (e : Env) : (w.fixDays e).levels = w.levels := rfl
@[simp] theorem Works.fixDays_line (w : Works) (e : Env) : (w.fixDays e).line = w.line := rfl
@[simp] theorem Works.fixDays_report (w : Works) (e : Env) : (w.fixDays e).report = w.report := rfl
@[simp] theorem Works.fixDays_agenda (w : Works) (e : Env) : (w.fixDays e).agenda = w.agenda := rfl

/-! ### `modChannel` -/

@[simp] theorem Works.modChannel_jobs (w : Works) (n : Nat) (f : Channel → Channel) : (w.modChannel n f).jobs = w.jobs := rfl
@[simp] theorem Works.modChannel_flash (w : Works) (n : Nat) (f : Channel → Channel) : (w.modChannel n f).flash = w.flash := rfl
@[simp] theorem Works.modChannel_zones (w : Works) (n : Nat) (f : Channel → Channel) : (w.modChannel n f).zones = w.zones := rfl
@[simp] theorem Works.modChannel_trunks (w : Works) (n : Nat) (f : Channel → Channel) : (w.modChannel n f).trunks = w.trunks := rfl
@[simp] theorem Works.modChannel_levels (w : Works) (n : Nat) (f : Channel → Channel) : (w.modChannel n f).levels = w.levels := rfl
@[simp] theorem Works.modChannel_line (w : Works) (n : Nat) (f : Channel → Channel) : (w.modChannel n f).line = w.line := rfl
@[simp] theorem Works.modChannel_report (w : Works) (n : Nat) (f : Channel → Channel) : (w.modChannel n f).report = w.report := rfl
@[simp] theorem Works.modChannel_agenda (w : Works) (n : Nat) (f : Channel → Channel) : (w.modChannel n f).agenda = w.agenda := rfl

/-! ### `place` -/

@[simp] theorem Works.place_jobs (w : Works) (n : Nat) (items : List FifoItem) : (w.place n items).jobs = w.jobs := rfl
@[simp] theorem Works.place_flash (w : Works) (n : Nat) (items : List FifoItem) : (w.place n items).flash = w.flash := rfl
@[simp] theorem Works.place_zones (w : Works) (n : Nat) (items : List FifoItem) : (w.place n items).zones = w.zones := rfl
@[simp] theorem Works.place_trunks (w : Works) (n : Nat) (items : List FifoItem) : (w.place n items).trunks = w.trunks := rfl
@[simp] theorem Works.place_levels (w : Works) (n : Nat) (items : List FifoItem) : (w.place n items).levels = w.levels := rfl
@[simp] theorem Works.place_line (w : Works) (n : Nat) (items : List FifoItem) : (w.place n items).line = w.line := rfl
@[simp] theorem Works.place_report (w : Works) (n : Nat) (items : List FifoItem) : (w.place n items).report = w.report := rfl
@[simp] theorem Works.place_agenda (w : Works) (n : Nat) (items : List FifoItem) : (w.place n items).agenda = w.agenda := rfl

/-! ### `placeFailed` -/

@[simp] theorem Works.placeFailed_jobs (w : Works) (n position : Nat) (essential : Bool) : (w.placeFailed n position essential).jobs = w.jobs := rfl
@[simp] theorem Works.placeFailed_flash (w : Works) (n position : Nat) (essential : Bool) : (w.placeFailed n position essential).flash = w.flash := rfl
@[simp] theorem Works.placeFailed_zones (w : Works) (n position : Nat) (essential : Bool) : (w.placeFailed n position essential).zones = w.zones := rfl
@[simp] theorem Works.placeFailed_trunks (w : Works) (n position : Nat) (essential : Bool) : (w.placeFailed n position essential).trunks = w.trunks := rfl
@[simp] theorem Works.placeFailed_levels (w : Works) (n position : Nat) (essential : Bool) : (w.placeFailed n position essential).levels = w.levels := rfl
@[simp] theorem Works.placeFailed_line (w : Works) (n position : Nat) (essential : Bool) : (w.placeFailed n position essential).line = w.line := rfl
@[simp] theorem Works.placeFailed_report (w : Works) (n position : Nat) (essential : Bool) : (w.placeFailed n position essential).report = w.report := rfl
@[simp] theorem Works.placeFailed_agenda (w : Works) (n position : Nat) (essential : Bool) : (w.placeFailed n position essential).agenda = w.agenda := rfl

/-! ### `startPlaying` -/

@[simp] theorem Works.startPlaying_jobs (w : Works) (n : Nat) (trunk : Option Nat) : (w.startPlaying n trunk).jobs = w.jobs := rfl
@[simp] theorem Works.startPlaying_flash (w : Works) (n : Nat) (trunk : Option Nat) : (w.startPlaying n trunk).flash = w.flash := rfl
@[simp] theorem Works.startPlaying_zones (w : Works) (n : Nat) (trunk : Option Nat) : (w.startPlaying n trunk).zones = w.zones := rfl
@[simp] theorem Works.startPlaying_trunks (w : Works) (n : Nat) (trunk : Option Nat) : (w.startPlaying n trunk).trunks = w.trunks := rfl
@[simp] theorem Works.startPlaying_levels (w : Works) (n : Nat) (trunk : Option Nat) : (w.startPlaying n trunk).levels = w.levels := rfl
@[simp] theorem Works.startPlaying_line (w : Works) (n : Nat) (trunk : Option Nat) : (w.startPlaying n trunk).line = w.line := rfl
@[simp] theorem Works.startPlaying_report (w : Works) (n : Nat) (trunk : Option Nat) : (w.startPlaying n trunk).report = w.report := rfl
@[simp] theorem Works.startPlaying_agenda (w : Works) (n : Nat) (trunk : Option Nat) : (w.startPlaying n trunk).agenda = w.agenda := rfl

/-! ### `modStream` -/

@[simp] theorem Works.modStream_jobs (w : Works) (n : Nat) (f : Stream → Stream) : (w.modStream n f).jobs = w.jobs := rfl
@[simp] theorem Works.modStream_channels (w : Works) (n : Nat) (f : Stream → Stream) : (w.modStream n f).channels = w.channels := rfl
@[simp] theorem Works.modStream_zones (w : Works) (n : Nat) (f : Stream → Stream) : (w.modStream n f).zones = w.zones := rfl
@[simp] theorem Works.modStream_trunks (w : Works) (n : Nat) (f : Stream → Stream) : (w.modStream n f).trunks = w.trunks := rfl
@[simp] theorem Works.modStream_levels (w : Works) (n : Nat) (f : Stream → Stream) : (w.modStream n f).levels = w.levels := rfl
@[simp] theorem Works.modStream_line (w : Works) (n : Nat) (f : Stream → Stream) : (w.modStream n f).line = w.line := rfl
@[simp] theorem Works.modStream_report (w : Works) (n : Nat) (f : Stream → Stream) : (w.modStream n f).report = w.report := rfl
@[simp] theorem Works.modStream_agenda (w : Works) (n : Nat) (f : Stream → Stream) : (w.modStream n f).agenda = w.agenda := rfl

/-! ### `freePort` -/

@[simp] theorem Works.freePort_jobs (w : Works) : (w.freePort).jobs = w.jobs := rfl
@[simp] theorem Works.freePort_channels (w : Works) : (w.freePort).channels = w.channels := rfl
@[simp] theorem Works.freePort_zones (w : Works) : (w.freePort).zones = w.zones := rfl
@[simp] theorem Works.freePort_trunks (w : Works) : (w.freePort).trunks = w.trunks := rfl
@[simp] theorem Works.freePort_levels (w : Works) : (w.freePort).levels = w.levels := rfl
@[simp] theorem Works.freePort_line (w : Works) : (w.freePort).line = w.line := rfl
@[simp] theorem Works.freePort_report (w : Works) : (w.freePort).report = w.report := rfl
@[simp] theorem Works.freePort_agenda (w : Works) : (w.freePort).agenda = w.agenda := rfl

/-! ### `dropReads` -/

@[simp] theorem Works.dropReads_jobs (w : Works) (channel : Nat) : (w.dropReads channel).jobs = w.jobs := rfl
@[simp] theorem Works.dropReads_channels (w : Works) (channel : Nat) : (w.dropReads channel).channels = w.channels := rfl
@[simp] theorem Works.dropReads_zones (w : Works) (channel : Nat) : (w.dropReads channel).zones = w.zones := rfl
@[simp] theorem Works.dropReads_trunks (w : Works) (channel : Nat) : (w.dropReads channel).trunks = w.trunks := rfl
@[simp] theorem Works.dropReads_levels (w : Works) (channel : Nat) : (w.dropReads channel).levels = w.levels := rfl
@[simp] theorem Works.dropReads_line (w : Works) (channel : Nat) : (w.dropReads channel).line = w.line := rfl
@[simp] theorem Works.dropReads_report (w : Works) (channel : Nat) : (w.dropReads channel).report = w.report := rfl
@[simp] theorem Works.dropReads_agenda (w : Works) (channel : Nat) : (w.dropReads channel).agenda = w.agenda := rfl

/-! ### `modLevel` -/

@[simp] theorem Works.modLevel_jobs (w : Works) (zone : Nat) (f : LevelEntry → LevelEntry) : (w.modLevel zone f).jobs = w.jobs := rfl
@[simp] theorem Works.modLevel_flash (w : Works) (zone : Nat) (f : LevelEntry → LevelEntry) : (w.modLevel zone f).flash = w.flash := rfl
@[simp] theorem Works.modLevel_channels (w : Works) (zone : Nat) (f : LevelEntry → LevelEntry) : (w.modLevel zone f).channels = w.channels := rfl
@[simp] theorem Works.modLevel_zones (w : Works) (zone : Nat) (f : LevelEntry → LevelEntry) : (w.modLevel zone f).zones = w.zones := rfl
@[simp] theorem Works.modLevel_trunks (w : Works) (zone : Nat) (f : LevelEntry → LevelEntry) : (w.modLevel zone f).trunks = w.trunks := rfl
@[simp] theorem Works.modLevel_line (w : Works) (zone : Nat) (f : LevelEntry → LevelEntry) : (w.modLevel zone f).line = w.line := rfl
@[simp] theorem Works.modLevel_report (w : Works) (zone : Nat) (f : LevelEntry → LevelEntry) : (w.modLevel zone f).report = w.report := rfl
@[simp] theorem Works.modLevel_agenda (w : Works) (zone : Nat) (f : LevelEntry → LevelEntry) : (w.modLevel zone f).agenda = w.agenda := rfl

/-! ### `askLevel` -/

@[simp] theorem Works.askLevel_jobs (w : Works) (zone : Nat) (c : Cls) : (w.askLevel zone c).jobs = w.jobs := rfl
@[simp] theorem Works.askLevel_flash (w : Works) (zone : Nat) (c : Cls) : (w.askLevel zone c).flash = w.flash := rfl
@[simp] theorem Works.askLevel_channels (w : Works) (zone : Nat) (c : Cls) : (w.askLevel zone c).channels = w.channels := rfl
@[simp] theorem Works.askLevel_zones (w : Works) (zone : Nat) (c : Cls) : (w.askLevel zone c).zones = w.zones := rfl
@[simp] theorem Works.askLevel_trunks (w : Works) (zone : Nat) (c : Cls) : (w.askLevel zone c).trunks = w.trunks := rfl
@[simp] theorem Works.askLevel_line (w : Works) (zone : Nat) (c : Cls) : (w.askLevel zone c).line = w.line := rfl
@[simp] theorem Works.askLevel_report (w : Works) (zone : Nat) (c : Cls) : (w.askLevel zone c).report = w.report := rfl
@[simp] theorem Works.askLevel_agenda (w : Works) (zone : Nat) (c : Cls) : (w.askLevel zone c).agenda = w.agenda := rfl

/-! ### `bump` -/

@[simp] theorem Works.bump_jobs (w : Works) (c : Counter) : (w.bump c).jobs = w.jobs := rfl
@[simp] theorem Works.bump_flash (w : Works) (c : Counter) : (w.bump c).flash = w.flash := rfl
@[simp] theorem Works.bump_channels (w : Works) (c : Counter) : (w.bump c).channels = w.channels := rfl
@[simp] theorem Works.bump_zones (w : Works) (c : Counter) : (w.bump c).zones = w.zones := rfl
@[simp] theorem Works.bump_trunks (w : Works) (c : Counter) : (w.bump c).trunks = w.trunks := rfl
@[simp] theorem Works.bump_levels (w : Works) (c : Counter) : (w.bump c).levels = w.levels := rfl
@[simp] theorem Works.bump_line (w : Works) (c : Counter) : (w.bump c).line = w.line := rfl
@[simp] theorem Works.bump_agenda (w : Works) (c : Counter) : (w.bump c).agenda = w.agenda := rfl

/-! ### `clearCounters` -/

@[simp] theorem Works.clearCounters_jobs (w : Works) : (w.clearCounters).jobs = w.jobs := rfl
@[simp] theorem Works.clearCounters_flash (w : Works) : (w.clearCounters).flash = w.flash := rfl
@[simp] theorem Works.clearCounters_channels (w : Works) : (w.clearCounters).channels = w.channels := rfl
@[simp] theorem Works.clearCounters_zones (w : Works) : (w.clearCounters).zones = w.zones := rfl
@[simp] theorem Works.clearCounters_trunks (w : Works) : (w.clearCounters).trunks = w.trunks := rfl
@[simp] theorem Works.clearCounters_levels (w : Works) : (w.clearCounters).levels = w.levels := rfl
@[simp] theorem Works.clearCounters_line (w : Works) : (w.clearCounters).line = w.line := rfl
@[simp] theorem Works.clearCounters_agenda (w : Works) : (w.clearCounters).agenda = w.agenda := rfl

/-! ### `queueFrame` -/

@[simp] theorem Works.queueFrame_jobs (w : Works) (f : Frame) (p : TxPurpose) : (w.queueFrame f p).jobs = w.jobs := rfl
@[simp] theorem Works.queueFrame_flash (w : Works) (f : Frame) (p : TxPurpose) : (w.queueFrame f p).flash = w.flash := rfl
@[simp] theorem Works.queueFrame_channels (w : Works) (f : Frame) (p : TxPurpose) : (w.queueFrame f p).channels = w.channels := rfl
@[simp] theorem Works.queueFrame_zones (w : Works) (f : Frame) (p : TxPurpose) : (w.queueFrame f p).zones = w.zones := rfl
@[simp] theorem Works.queueFrame_trunks (w : Works) (f : Frame) (p : TxPurpose) : (w.queueFrame f p).trunks = w.trunks := rfl
@[simp] theorem Works.queueFrame_levels (w : Works) (f : Frame) (p : TxPurpose) : (w.queueFrame f p).levels = w.levels := rfl
@[simp] theorem Works.queueFrame_report (w : Works) (f : Frame) (p : TxPurpose) : (w.queueFrame f p).report = w.report := rfl
@[simp] theorem Works.queueFrame_agenda (w : Works) (f : Frame) (p : TxPurpose) : (w.queueFrame f p).agenda = w.agenda := rfl

/-! ### `withdrawSeize` -/

@[simp] theorem Works.withdrawSeize_jobs (w : Works) (tag trunk : Nat) : (w.withdrawSeize tag trunk).jobs = w.jobs := rfl
@[simp] theorem Works.withdrawSeize_flash (w : Works) (tag trunk : Nat) : (w.withdrawSeize tag trunk).flash = w.flash := rfl
@[simp] theorem Works.withdrawSeize_channels (w : Works) (tag trunk : Nat) : (w.withdrawSeize tag trunk).channels = w.channels := rfl
@[simp] theorem Works.withdrawSeize_zones (w : Works) (tag trunk : Nat) : (w.withdrawSeize tag trunk).zones = w.zones := rfl
@[simp] theorem Works.withdrawSeize_trunks (w : Works) (tag trunk : Nat) : (w.withdrawSeize tag trunk).trunks = w.trunks := rfl
@[simp] theorem Works.withdrawSeize_levels (w : Works) (tag trunk : Nat) : (w.withdrawSeize tag trunk).levels = w.levels := rfl
@[simp] theorem Works.withdrawSeize_report (w : Works) (tag trunk : Nat) : (w.withdrawSeize tag trunk).report = w.report := rfl
@[simp] theorem Works.withdrawSeize_agenda (w : Works) (tag trunk : Nat) : (w.withdrawSeize tag trunk).agenda = w.agenda := rfl

/-! ### `setTrunk` -/

@[simp] theorem Works.setTrunk_jobs (w : Works) (t : Nat) (h : Option TrunkHold) : (w.setTrunk t h).jobs = w.jobs := rfl
@[simp] theorem Works.setTrunk_flash (w : Works) (t : Nat) (h : Option TrunkHold) : (w.setTrunk t h).flash = w.flash := rfl
@[simp] theorem Works.setTrunk_channels (w : Works) (t : Nat) (h : Option TrunkHold) : (w.setTrunk t h).channels = w.channels := rfl
@[simp] theorem Works.setTrunk_zones (w : Works) (t : Nat) (h : Option TrunkHold) : (w.setTrunk t h).zones = w.zones := rfl
@[simp] theorem Works.setTrunk_levels (w : Works) (t : Nat) (h : Option TrunkHold) : (w.setTrunk t h).levels = w.levels := rfl
@[simp] theorem Works.setTrunk_line (w : Works) (t : Nat) (h : Option TrunkHold) : (w.setTrunk t h).line = w.line := rfl
@[simp] theorem Works.setTrunk_report (w : Works) (t : Nat) (h : Option TrunkHold) : (w.setTrunk t h).report = w.report := rfl
@[simp] theorem Works.setTrunk_agenda (w : Works) (t : Nat) (h : Option TrunkHold) : (w.setTrunk t h).agenda = w.agenda := rfl

/-! ### `fetchChanged` -/

@[simp] theorem Works.fetchChanged_jobs (w : Works) (n : Nat) : (w.fetchChanged n).jobs = w.jobs := rfl
@[simp] theorem Works.fetchChanged_flash (w : Works) (n : Nat) : (w.fetchChanged n).flash = w.flash := rfl
@[simp] theorem Works.fetchChanged_channels (w : Works) (n : Nat) : (w.fetchChanged n).channels = w.channels := rfl
@[simp] theorem Works.fetchChanged_zones (w : Works) (n : Nat) : (w.fetchChanged n).zones = w.zones := rfl
@[simp] theorem Works.fetchChanged_trunks (w : Works) (n : Nat) : (w.fetchChanged n).trunks = w.trunks := rfl
@[simp] theorem Works.fetchChanged_levels (w : Works) (n : Nat) : (w.fetchChanged n).levels = w.levels := rfl
@[simp] theorem Works.fetchChanged_line (w : Works) (n : Nat) : (w.fetchChanged n).line = w.line := rfl
@[simp] theorem Works.fetchChanged_report (w : Works) (n : Nat) : (w.fetchChanged n).report = w.report := rfl

/-! ### The state -/

@[simp] theorem State.withWs_pending (s : State) (w : Works) : (s.withWs w).pending = s.pending := rfl
@[simp] theorem State.withWs_node_env (s : State) (w : Works) : (s.withWs w).node.env = s.node.env := rfl
@[simp] theorem State.withWs_node_ws (s : State) (w : Works) : (s.withWs w).node.ws = w := rfl
@[simp] theorem State.withEnv_pending (s : State) (e : Env) : (s.withEnv e).pending = s.pending := rfl
@[simp] theorem State.withEnv_node_env (s : State) (e : Env) : (s.withEnv e).node.env = e := rfl
@[simp] theorem State.withEnv_node_ws (s : State) (e : Env) : (s.withEnv e).node.ws = s.node.ws := rfl

@[simp] theorem State.taken_jobs (s : State) (rest : List Frame) : (s.taken rest).jobs = s.node.ws.jobs := rfl
@[simp] theorem State.taken_flash (s : State) (rest : List Frame) : (s.taken rest).flash = s.node.ws.flash := rfl
@[simp] theorem State.taken_channels (s : State) (rest : List Frame) : (s.taken rest).channels = s.node.ws.channels := rfl
@[simp] theorem State.taken_zones (s : State) (rest : List Frame) : (s.taken rest).zones = s.node.ws.zones := rfl
@[simp] theorem State.taken_trunks (s : State) (rest : List Frame) : (s.taken rest).trunks = s.node.ws.trunks := rfl
@[simp] theorem State.taken_levels (s : State) (rest : List Frame) : (s.taken rest).levels = s.node.ws.levels := rfl
@[simp] theorem State.taken_line (s : State) (rest : List Frame) : (s.taken rest).line = s.node.ws.line.takeFrame rest := rfl
@[simp] theorem State.taken_report (s : State) (rest : List Frame) : (s.taken rest).report = s.node.ws.report := rfl
@[simp] theorem State.taken_agenda (s : State) (rest : List Frame) : (s.taken rest).agenda = s.node.ws.agenda := rfl
@[simp] theorem State.echoGone_jobs (s : State) : s.echoGone.jobs = s.node.ws.jobs := rfl
@[simp] theorem State.echoGone_flash (s : State) : s.echoGone.flash = s.node.ws.flash := rfl
@[simp] theorem State.echoGone_channels (s : State) : s.echoGone.channels = s.node.ws.channels := rfl
@[simp] theorem State.echoGone_zones (s : State) : s.echoGone.zones = s.node.ws.zones := rfl
@[simp] theorem State.echoGone_trunks (s : State) : s.echoGone.trunks = s.node.ws.trunks := rfl
@[simp] theorem State.echoGone_levels (s : State) : s.echoGone.levels = s.node.ws.levels := rfl
@[simp] theorem State.echoGone_report (s : State) : s.echoGone.report = s.node.ws.report := rfl
@[simp] theorem State.echoGone_agenda (s : State) : s.echoGone.agenda = s.node.ws.agenda := rfl

/-- A posted piece of work stands last on the agenda. -/
@[simp] theorem Works.post_agenda (w : Works) (n : Note) : (w.post n).agenda = w.agenda ++ [n] := rfl

/-- Posted pieces of work stand last on the agenda, in order. -/
@[simp] theorem Works.postAll_agenda (w : Works) (ns : List Note) : (w.postAll ns).agenda = w.agenda ++ ns := rfl

@[simp] theorem Line.dropSent_rx (l : Line) : l.dropSent.rx = l.rx := rfl
@[simp] theorem Line.emptyQueue_rx (l : Line) : l.emptyQueue.rx = l.rx := rfl
@[simp] theorem Line.dropSent_echo (l : Line) : l.dropSent.echo = l.echo := rfl
@[simp] theorem Line.emptyQueue_echo (l : Line) : l.emptyQueue.echo = l.echo := rfl
@[simp] theorem Line.dropSent_spoilRun (l : Line) : l.dropSent.spoilRun = l.spoilRun := rfl
@[simp] theorem Line.emptyQueue_spoilRun (l : Line) : l.emptyQueue.spoilRun = l.spoilRun := rfl
@[simp] theorem Line.dropSent_ownSpoils (l : Line) : l.dropSent.ownSpoils = l.ownSpoils := rfl
@[simp] theorem Line.emptyQueue_ownSpoils (l : Line) : l.emptyQueue.ownSpoils = l.ownSpoils := rfl
@[simp] theorem Line.dropSent_spoilSlot (l : Line) : l.dropSent.spoilSlot = l.spoilSlot := rfl
@[simp] theorem Line.emptyQueue_spoilSlot (l : Line) : l.emptyQueue.spoilSlot = l.spoilSlot := rfl
@[simp] theorem Line.dropSent_askAlt (l : Line) : l.dropSent.askAlt = l.askAlt := rfl
@[simp] theorem Line.dropSent_asks (l : Line) : l.dropSent.asks = l.asks := rfl
@[simp] theorem Line.emptyQueue_askAlt (l : Line) : l.emptyQueue.askAlt = l.askAlt := rfl
@[simp] theorem Line.emptyQueue_asks (l : Line) : l.emptyQueue.asks = l.asks := rfl
@[simp] theorem Line.takeFrame_tx (l : Line) (rest : List Frame) : (l.takeFrame rest).tx = l.tx := rfl
@[simp] theorem Line.emptyFifo_tx (l : Line) : l.emptyFifo.tx = l.tx := rfl
@[simp] theorem Line.takeFrame_spoilRun (l : Line) (rest : List Frame) : (l.takeFrame rest).spoilRun = l.spoilRun := rfl
@[simp] theorem Line.emptyFifo_spoilRun (l : Line) : l.emptyFifo.spoilRun = l.spoilRun := rfl
@[simp] theorem Line.takeFrame_ownSpoils (l : Line) (rest : List Frame) : (l.takeFrame rest).ownSpoils = l.ownSpoils := rfl
@[simp] theorem Line.emptyFifo_ownSpoils (l : Line) : l.emptyFifo.ownSpoils = l.ownSpoils := rfl
@[simp] theorem Line.takeFrame_spoilSlot (l : Line) (rest : List Frame) : (l.takeFrame rest).spoilSlot = l.spoilSlot := rfl
@[simp] theorem Line.emptyFifo_spoilSlot (l : Line) : l.emptyFifo.spoilSlot = l.spoilSlot := rfl
@[simp] theorem Line.takeFrame_askAlt (l : Line) (rest : List Frame) : (l.takeFrame rest).askAlt = l.askAlt := rfl
@[simp] theorem Line.emptyFifo_askAlt (l : Line) : l.emptyFifo.askAlt = l.askAlt := rfl
@[simp] theorem Line.takeFrame_asks (l : Line) (rest : List Frame) : (l.takeFrame rest).asks = l.asks := rfl
@[simp] theorem Line.emptyFifo_asks (l : Line) : l.emptyFifo.asks = l.asks := rfl
@[simp] theorem Line.takeFrame_rx (l : Line) (rest : List Frame) : (l.takeFrame rest).rx = rest := rfl
@[simp] theorem Line.emptyFifo_rx (l : Line) : l.emptyFifo.rx = [] := rfl

end Sys2Proof.Machine
end

