-- ==== Sys2Proof/Laws/Settle.lean ====
section
/-! SUPPORT. Settling and the step: what `run` answers, when nothing is left to settle, and what settling never touches. -/

namespace Sys2Proof.Machine

open Sys2Proof

/-- With no work on the agenda settling changes nothing. -/
theorem settle_of_empty (e : Env) (fuel : Nat) (w : Works) (h : w.agenda = []) : settle e fuel w = w := by
  cases fuel with
  | zero => rfl
  | succ n => simp [settle, h]

/-- One piece of work is done and settling goes on. -/
theorem settle_cons (e : Env) (fuel : Nat) (w : Works) (n : Note) (rest : List Note) (h : w.agenda = n :: rest) :
    settle e (fuel + 1) w = settle e fuel (handle e n { w with agenda := rest }) := by
  simp [settle, h]

/-- Settling does not change what the blocks only read. -/
@[simp] theorem Node.settled_env (n : Node) : n.settled.env = n.env := rfl

/-- The works after settling. -/
theorem Node.settled_ws (n : Node) : n.settled.ws = settle n.env settleFuel n.ws := rfl

/-- A node without work left over is settled. -/
theorem Node.settled_of_empty (n : Node) (h : n.ws.agenda = []) : n.settled = n := by
  cases n with
  | mk e w =>
    simp only [Node.settled]
    rw [settle_of_empty e settleFuel w h]

/-- What a command answers: always a next state. -/
theorem run_eq (f : Node → Node) (s : State) : run f s = .next { s with node := (f s.node).settled } := rfl

/-- What a command answers when its effect leaves no work to other blocks. -/
theorem run_of_empty (f : Node → Node) (s : State) (h : (f s.node).ws.agenda = []) :
    run f s = .next { s with node := f s.node } := by
  rw [run_eq, Node.settled_of_empty _ h]

/-- A property of the works that every piece of work keeps is kept by settling. -/
theorem settle_keeps (e : Env) (P : Works → Prop) (hp : ∀ w a, P w → P { w with agenda := a })
    (h : ∀ n w, P w → P (handle e n w)) : ∀ (fuel : Nat) (w : Works), P w → P (settle e fuel w)
  | 0, _, hw => hw
  | fuel + 1, w, hw => by
    rw [settle]
    split
    · exact hw
    · exact settle_keeps e P hp h fuel _ (h _ _ (hp _ _ hw))

/-- Taking the frame at the head of the receive FIFO. -/
theorem takeFrom_of_head (act : Frame → Option (Node → Node)) (n : Node) (f : Frame) (rest : List Frame) (g : Node → Node)
    (hr : n.ws.line.rx = f :: rest) (he : n.ws.line.echoFirst = false) (ha : act f = some g) :
    takeFrom act n = g { n with ws := { n.ws with line := n.ws.line.takeFrame rest } } := by
  simp [takeFrom, hr, he, ha]

/-- Delivering the echo that is due. -/
theorem deliverEcho_of_due (wanted : EchoPlace → Bool) (n : Node) (x : EchoPlace) (hx : n.ws.line.echo = some x)
    (ha : x.ahead = 0) (hw : wanted x = true) :
    deliverEcho wanted n = echoEffect x { n with ws := { n.ws with line := { n.ws.line with echo := none } } } := by
  simp [deliverEcho, hx, ha, hw]

end Sys2Proof.Machine
end

