-- ==== Sys2Proof/Laws/Moves.lean ====
section
/-! SUPPORT. Everything the work blocks hand one another can do to the works, said once: `Moves w0 w` says that `w` comes
from `w0` by changes of the agenda, of the flash side but its cache, of the channels, of the jobs without a new record, of
the zones and levels within their bounds, of the transmit queue within its bounds, and by counter increments.  Each
operation is shown to move the works so; a later proof argues about the nine kinds of change and no operation. -/

namespace Sys2Proof.Machine

open Sys2Proof

/-- No job record appears: the tags afterwards are some of the tags before, in their order. -/
def JobTable.Shrinks (a b : JobTable) : Prop := (b.recs.map (·.tag)).Sublist (a.recs.map (·.tag))

/-- The zone table keeps its bounds and its zones. -/
def ZoneTable.Steps (a b : ZoneTable) : Prop := (a.wf → b.wf) ∧ b.recs.map (·.zone) = a.recs.map (·.zone)

/-- The levels keep their bounds and their zones. -/
def LevelsStep (a b : List LevelEntry) : Prop :=
  ((∀ l ∈ a, l.wf) → ∀ l ∈ b, l.wf) ∧ b.map (·.zone) = a.map (·.zone)

/-- Only the transmit queue and the own alternation bit change, and the queue keeps its bounds. -/
def Line.Steps (a b : Line) : Prop :=
  (a.queueWf → b.queueWf) ∧ b.rx = a.rx ∧ b.echo = a.echo ∧ b.spoilRun = a.spoilRun ∧ b.ownSpoils = a.ownSpoils
    ∧ b.spoilSlot = a.spoilSlot

/-- What the work of one command can do to the works, new job records apart. -/
inductive Moves (w0 : Works) : Works → Prop
  | refl : Moves w0 w0
  | agenda {w : Works} (a : List Note) : Moves w0 w → Moves w0 { w with agenda := a }
  | flash {w : Works} (f : Flash) : f.cache = w.flash.cache → f.streams.length = w.flash.streams.length → Moves w0 w →
      Moves w0 { w with flash := f }
  | channels {w : Works} (cs : List Channel) : cs.length = w.channels.length → Moves w0 w → Moves w0 { w with channels := cs }
  | jobs {w : Works} (j : JobTable) : w.jobs.Shrinks j → Moves w0 w → Moves w0 { w with jobs := j }
  | zones {w : Works} (z : ZoneTable) : w.zones.Steps z → Moves w0 w → Moves w0 { w with zones := z }
  | levels {w : Works} (l : List LevelEntry) : LevelsStep w.levels l → Moves w0 w → Moves w0 { w with levels := l }
  | line {w : Works} (l : Line) : w.line.Steps l → Moves w0 w → Moves w0 { w with line := l }
  | bump {w : Works} (c : Counter) : Moves w0 w → Moves w0 (w.bump c)

/-- Moves follow one another. -/
theorem Moves.trans {a b c : Works} (h : Moves a b) (k : Moves b c) : Moves a c := by
  induction k with
  | refl => exact h
  | agenda x _ ih => exact ih.agenda x
  | flash f h1 h2 _ ih => exact ih.flash f h1 h2
  | channels cs h1 _ ih => exact ih.channels cs h1
  | jobs j h1 _ ih => exact ih.jobs j h1
  | zones z h1 _ ih => exact ih.zones z h1
  | levels l h1 _ ih => exact ih.levels l h1
  | line l h1 _ ih => exact ih.line l h1
  | bump x _ ih => exact ih.bump x

/-- A left fold of operations that move the works moves them. -/
theorem Moves.foldl {α : Type} {w0 w : Works} (g : Works → α → Works)
    (hg : ∀ w x, Moves w (g w x)) (l : List α) (h : Moves w0 w) : Moves w0 (l.foldl g w) := by
  induction l generalizing w with
  | nil => exact h
  | cons x rest ih => exact ih (h.trans (hg w x))

/-! ### What moves keep -/

/-- Moves leave the trunk view, the fault set, the sequence number and the directory cache, the receive side of the line,
and the sizes of the tables. -/
theorem Moves.kept {w0 w : Works} (h : Moves w0 w) :
    w.trunks = w0.trunks ∧ w.report.faults = w0.report.faults ∧ w.report.seq = w0.report.seq
      ∧ w.flash.cache = w0.flash.cache ∧ w.line.rx = w0.line.rx ∧ w.line.echo = w0.line.echo
      ∧ w.line.spoilRun = w0.line.spoilRun ∧ w.line.ownSpoils = w0.line.ownSpoils ∧ w.line.spoilSlot = w0.line.spoilSlot
      ∧ w.channels.length = w0.channels.length ∧ w.flash.streams.length = w0.flash.streams.length := by
  induction h with
  | refl => simp
  | agenda _ _ ih => exact ih
  | flash f h1 h2 _ ih => simp_all
  | channels cs h1 _ ih => simp_all
  | jobs _ _ _ ih => exact ih
  | zones _ _ _ ih => exact ih
  | levels _ _ _ ih => exact ih
  | line l h1 _ ih => obtain ⟨-, h2, h3, h4, h5, h6⟩ := h1; simp_all
  | bump _ _ ih => exact ih

/-- Moves shrink the Job Table. -/
theorem Moves.shrinks {w0 w : Works} (h : Moves w0 w) : w0.jobs.Shrinks w.jobs := by
  induction h with
  | jobs j h1 _ ih => exact List.Sublist.trans h1 ih
  | refl => exact List.Sublist.refl _
  | _ => assumption

/-- Moves keep the zones' bounds and numbers. -/
theorem Moves.zoneSteps {w0 w : Works} (h : Moves w0 w) : w0.zones.Steps w.zones := by
  induction h with
  | zones z h1 _ ih => exact ⟨fun x => h1.1 (ih.1 x), h1.2.trans ih.2⟩
  | refl => exact ⟨id, rfl⟩
  | _ => assumption

/-- Moves keep the levels' bounds and zones. -/
theorem Moves.levelSteps {w0 w : Works} (h : Moves w0 w) : LevelsStep w0.levels w.levels := by
  induction h with
  | levels z h1 _ ih => exact ⟨fun x => h1.1 (ih.1 x), h1.2.trans ih.2⟩
  | refl => exact ⟨id, rfl⟩
  | _ => assumption

/-- Moves keep the transmit queue's bounds. -/
theorem Moves.queueWf {w0 w : Works} (h : Moves w0 w) : w0.line.queueWf → w.line.queueWf := by
  induction h with
  | line l h1 _ ih => exact fun x => h1.1 (ih x)
  | refl => exact id
  | _ => assumption

/-- A counter after an increment. -/
theorem Works.counter_bump (w : Works) (c k : Counter) :
    (w.bump c).counter k = if c.index = k.index ∧ k.index < w.report.counters.length then saturate (w.counter k)
      else w.counter k := by
  simp only [Works.counter, Works.bump, List.getD_eq_getElem?_getD, List.getElem?_modify]
  by_cases h : c.index = k.index
  · by_cases hk : k.index < w.report.counters.length
    · simp [h, hk]
    · simp [h, hk]
  · simp [h]

/-- An increment never lowers a value. -/
theorem le_saturate (v : Nat) (h : v ≤ 65535) : v ≤ saturate v := by unfold saturate; split <;> omega

/-- An incremented counter is in its range. -/
theorem saturate_le (v : Nat) : saturate v ≤ 65535 := by unfold saturate; split <;> omega

/-- An increment keeps the Report Unit's bounds. -/
theorem Works.bump_wf (w : Works) (c : Counter) (h : w.report.wf) : (w.bump c).report.wf := by
  obtain ⟨h1, h2, h3⟩ := h
  refine ⟨by simpa [Works.bump] using h1, ?_, h3⟩
  intro v hv
  simp only [Works.bump, List.mem_iff_getElem?, List.getElem?_modify] at hv
  obtain ⟨i, hi⟩ := hv
  cases hx : w.report.counters[i]? with
  | none => simp [hx] at hi
  | some x =>
    have hm : x ≤ 65535 := h2 x (List.mem_of_getElem? hx)
    rw [hx] at hi
    by_cases hc : c.index = i
    · simp only [hc, if_true, Option.map_eq_map, Option.map_some, Option.some.injEq] at hi
      subst hi; exact saturate_le x
    · simp only [hc, if_false, Option.map_eq_map, Option.map_some, Option.some.injEq] at hi
      omega

/-- Moves keep the Report Unit's bounds. -/
theorem Moves.reportWf {w0 w : Works} (h : Moves w0 w) : w0.report.wf → w.report.wf := by
  induction h with
  | bump c _ ih => exact fun x => Works.bump_wf _ c (ih x)
  | refl => exact id
  | _ => assumption

/-! ### Counters and the transmit queue -/

/-- Several increments move the works. -/
theorem Works.bumpBy_moves {w0 w : Works} (c : Counter) (n : Nat) (h : Moves w0 w) : Moves w0 (w.bumpBy c n) := by
  induction n generalizing w with
  | zero => exact h
  | succ n ih => exact ih (h.bump c)

/-- Posting work. -/
theorem Works.post_moves {w0 w : Works} (n : Note) (h : Moves w0 w) : Moves w0 (w.post n) := h.agenda _

/-- Posting work. -/
theorem Works.postAll_moves {w0 w : Works} (n : List Note) (h : Moves w0 w) : Moves w0 (w.postAll n) := h.agenda _

/-- A frame placed in the queue is one more. -/
theorem enqueueFrame_length (f : TxFrame) (l : List TxFrame) : (enqueueFrame f l).length = l.length + 1 := by
  induction l with
  | nil => rfl
  | cons g rest ih => unfold enqueueFrame; split <;> simp [ih]

/-- The frames of the queue after one is placed. -/
theorem mem_enqueueFrame (f x : TxFrame) (l : List TxFrame) : x ∈ enqueueFrame f l ↔ x = f ∨ x ∈ l := by
  induction l with
  | nil => simp [enqueueFrame]
  | cons g rest ih =>
    unfold enqueueFrame
    split
    · simp
    · simp only [List.mem_cons, ih]; tauto

/-- The queue stays in class order when a frame takes its place. -/
theorem enqueueFrame_ordered (f : TxFrame) (l : List TxFrame) (h : classOrdered l) : classOrdered (enqueueFrame f l) := by
  induction l with
  | nil => exact List.pairwise_singleton _ _
  | cons g rest ih =>
    have h' := List.pairwise_cons.mp h
    unfold enqueueFrame
    split
    · rename_i hb
      have hfg : f.frame.cls.rank < g.frame.cls.rank := by simpa [Cls.better] using hb
      refine List.pairwise_cons.mpr ⟨?_, h⟩
      intro x hx
      rcases List.mem_cons.mp hx with rfl | hx
      · omega
      · have := h'.1 x hx; omega
    · rename_i hb
      have hfg : g.frame.cls.rank ≤ f.frame.cls.rank := by simpa [Cls.better] using hb
      refine List.pairwise_cons.mpr ⟨?_, ih h'.2⟩
      intro x hx
      rcases (mem_enqueueFrame f x rest).mp hx with rfl | hx
      · exact hfg
      · exact h'.1 x hx

/-- The queue without its youngest class-3 frame is a part of it, one shorter, and that frame was no frame in transmission. -/
theorem dropYoungest_spec (l : List TxFrame) (x : TxFrame) (r : List TxFrame) (h : dropYoungest l = some (x, r)) :
    r.Sublist l ∧ r.length + 1 = l.length ∧ x ∈ l ∧ x.frame.cls = .information ∧ x.sending = false := by
  induction l generalizing x r with
  | nil => simp [dropYoungest] at h
  | cons g rest ih =>
    unfold dropYoungest at h
    split at h
    · rename_i y r' hy
      simp only [Option.some.injEq, Prod.mk.injEq] at h
      obtain ⟨rfl, rfl⟩ := h
      obtain ⟨h1, h2, h3, h4⟩ := ih _ _ hy
      exact ⟨h1.cons_cons g, by simp [h2], List.mem_cons_of_mem _ h3, h4⟩
    · split at h
      · rename_i hg
        simp only [Option.some.injEq, Prod.mk.injEq] at h
        obtain ⟨rfl, rfl⟩ := h
        exact ⟨List.sublist_cons_self _ _, by simp, List.mem_cons_self, hg⟩
      · simp at h

/-- Queueing a frame moves the works when the queue has a place. -/
theorem Works.queueFrame_moves {w0 w : Works} (f : Frame) (p : TxPurpose) (hr : w.line.queueWf → w.line.tx.length < txCapacity)
    (h : Moves w0 w) : Moves w0 (w.queueFrame f p) := by
  refine h.line _ ⟨?_, rfl, rfl, rfl, rfl, rfl⟩
  intro hw
  exact ⟨by rw [enqueueFrame_length]; exact hr hw, enqueueFrame_ordered _ _ hw.2⟩

/-- An unsent frame. -/
theorem Works.unsent_moves {w0 w : Works} (f : Frame) (p : TxPurpose) (h : Moves w0 w) : Moves w0 (w.unsent f p) := by
  unfold Works.unsent
  dsimp only
  split
  · exact (h.bump _).agenda _
  · exact (h.bump _).agenda _
  · exact h.bump _

/-- Handing a frame over: the queue keeps its bounds, and only counters and the agenda change beside it. -/
theorem Works.hand_moves {w0 w : Works} (e : Env) (f : Frame) (p : TxPurpose) (h : Moves w0 w) : Moves w0 (w.hand e f p) := by
  unfold Works.hand
  split
  · exact h
  · split
    · exact Works.unsent_moves f p h
    · split
      · rename_i hl; exact Works.queueFrame_moves f p (fun _ => hl) h
      · split
        · exact Works.unsent_moves f p h
        · split
          · rename_i x rest hd
            obtain ⟨h1, h2, -⟩ := dropYoungest_spec _ _ _ hd
            have hs : w.line.Steps { w.line with
                tx := enqueueFrame { frame := f, purpose := p, sending := false, doomed := false } rest } := by
              refine ⟨fun hw => ⟨?_, enqueueFrame_ordered _ _ (hw.2.sublist h1)⟩, rfl, rfl, rfl, rfl, rfl⟩
              rw [enqueueFrame_length, h2]
              exact hw.1
            have hm := h.line _ hs
            exact Works.unsent_moves _ _ hm
          · exact Works.unsent_moves f p h

/-- Several frames handed over. -/
theorem Works.handAll_moves {w0 w : Works} (e : Env) (fs : List Frame) (h : Moves w0 w) : Moves w0 (w.handAll e fs) :=
  Moves.foldl _ (fun _ _ => Works.hand_moves e _ _ .refl) fs h

/-- Withdrawing a SEIZE. -/
theorem Works.withdrawSeize_moves {w0 w : Works} (tag trunk : Nat) (h : Moves w0 w) : Moves w0 (w.withdrawSeize tag trunk) :=
  h.line _ ⟨fun hw => ⟨le_trans (List.length_filter_le _ _) hw.1, hw.2.sublist List.filter_sublist⟩, rfl, rfl, rfl, rfl, rfl⟩

/-! ### Jobs, channels, streams and levels -/

/-- A change of one job record that keeps its tag. -/
theorem Works.modJob_moves {w0 w : Works} (tag : Nat) (f : JobRec → JobRec) (hf : ∀ r, (f r).tag = r.tag) (h : Moves w0 w) :
    Moves w0 (w.modJob tag f) := by
  refine h.jobs _ ?_
  have : (w.jobs.recs.map (fun r => if r.tag = tag then f r else r)).map (·.tag) = w.jobs.recs.map (·.tag) := by
    rw [List.map_map]
    refine List.map_congr_left ?_
    intro r _
    simp only [Function.comp]
    split
    · exact hf r
    · rfl
  show List.Sublist ((w.jobs.recs.map (fun r => if r.tag = tag then f r else r)).map (·.tag)) (w.jobs.recs.map (·.tag))
  rw [this]

/-- A change of a gathering. -/
theorem Works.modGather_moves {w0 w : Works} (tag : Nat) (f : Gathering → Gathering) (h : Moves w0 w) :
    Moves w0 (w.modGather tag f) := Works.modJob_moves tag _ (fun _ => rfl) h

/-- A change of a grant record. -/
theorem Works.modGrants_moves {w0 w : Works} (tag : Nat) (f : List Grant → List Grant) (h : Moves w0 w) :
    Moves w0 (w.modGrants tag f) := Works.modGather_moves tag _ h

/-- A change of the degraded flags. -/
theorem Works.flag_moves {w0 w : Works} (tag : Nat) (f : Degraded → Degraded) (h : Moves w0 w) : Moves w0 (w.flag tag f) :=
  Works.modJob_moves tag _ (fun _ => rfl) h

/-- OPTIONAL-MISSED. -/
theorem Works.missed_moves {w0 w : Works} (tag : Nat) (h : Moves w0 w) : Moves w0 (w.missed tag) := Works.flag_moves tag _ h

/-- A change of the Job Table that keeps its records. -/
theorem Moves.sameRecs {w0 w : Works} (j : JobTable) (hj : j.recs = w.jobs.recs) (h : Moves w0 w) :
    Moves w0 { w with jobs := j } := h.jobs j (by unfold JobTable.Shrinks; rw [hj])

/-- A change of a channel. -/
theorem Works.modChannel_moves {w0 w : Works} (n : Nat) (f : Channel → Channel) (h : Moves w0 w) :
    Moves w0 (w.modChannel n f) := h.channels _ (List.length_modify _ _ _)

/-- A change of a stream. -/
theorem Works.modStream_moves {w0 w : Works} (n : Nat) (f : Stream → Stream) (h : Moves w0 w) :
    Moves w0 (w.modStream n f) := h.flash _ rfl (List.length_modify _ _ _)

/-- A change of one level entry within its bounds. -/
theorem Works.modLevel_moves {w0 w : Works} (zone : Nat) (f : LevelEntry → LevelEntry)
    (hf : ∀ l : LevelEntry, (l.wf → (f l).wf) ∧ (f l).zone = l.zone) (h : Moves w0 w) : Moves w0 (w.modLevel zone f) := by
  refine h.levels _ ⟨?_, ?_⟩
  · intro hw l hl
    obtain ⟨x, hx, rfl⟩ := List.mem_map.mp hl
    split
    · exact (hf x).1 (hw x hx)
    · exact hw x hx
  · rw [List.map_map]
    refine List.map_congr_left ?_
    intro l _
    simp only [Function.comp]
    split
    · exact (hf l).2
    · rfl

/-- A frame handed over leaves the levels. -/
@[simp] theorem Works.hand_levels (e : Env) (f : Frame) (p : TxPurpose) (w : Works) : (w.hand e f p).levels = w.levels := by
  unfold Works.hand Works.unsent
  repeat' split
  all_goals rfl

/-- A change of the fault set leaves the levels. -/
@[simp] theorem Works.faultEvent_levels (e : Env) (f : FaultSet → FaultSet) (w : Works) :
    (w.faultEvent e f).levels = w.levels := by
  unfold Works.faultEvent
  split <;> simp

/-- The levels after an event are the ones it sets. -/
@[simp] theorem Works.setLevels_levels (e : Env) (ls : List LevelEntry) (w : Works) : (w.setLevels e ls).levels = ls := by
  simp [Works.setLevels]

/-- A good reading leaves an entry its reading position. -/
@[simp] theorem LevelEntry.good_reading (r : Nat) (l : LevelEntry) : (l.good r).reading = l.reading := by
  unfold LevelEntry.good
  split <;> rfl

/-- A sensor fault leaves an entry its reading position. -/
@[simp] theorem LevelEntry.faulted_reading (l : LevelEntry) : l.faulted.reading = l.reading := by
  unfold LevelEntry.faulted
  split <;> rfl

/-- The result of a reading leaves an entry its reading position. -/
@[simp] theorem LevelEntry.reads_reading (now : Instant) (r : Option Nat) (l : LevelEntry) :
    (l.reads now r).reading = l.reading := by
  cases r with
  | none => rfl
  | some v =>
    simp only [LevelEntry.reads]
    split <;> simp

/-- What the readings from position `p` on make of the levels: each entry takes the result of its own position (R154). -/
theorem Works.readFrom_levels (e : Env) (rs : List (Option Nat)) (p : Nat) (w : Works) :
    (w.readFrom e p rs).levels =
      w.levels.map (fun l => if p ≤ l.reading then l.reads e.now ((rs[l.reading - p]?).join) else l) := by
  induction rs generalizing p w with
  | nil => simp [Works.readFrom, LevelEntry.reads]
  | cons r rest ih =>
    simp only [Works.readFrom, ih, Works.readPosition, Works.setLevels_levels, List.map_map]
    refine List.map_congr_left fun l _ => ?_
    simp only [Function.comp]
    rcases Nat.lt_trichotomy l.reading p with h | h | h
    · simp [Nat.ne_of_lt h, Nat.not_le.mpr h, Nat.not_le.mpr (Nat.lt_succ_of_lt h)]
    · simp [h]
    · obtain ⟨k, hk⟩ := Nat.exists_eq_add_of_lt h
      have h1 : l.reading - p = (l.reading - (p + 1)) + 1 := by omega
      simp [Nat.ne_of_gt h, Nat.le_of_lt h, Nat.succ_le_of_lt h, h1]

/-- The attenuation is within 0..63.5 dB. -/
theorem attenuationFor_le (l : LevelEntry) (c : Cls) : l.attenuationFor c ≤ 127 := Nat.min_le_left _ _

/-- The default estimate of an entry within its bounds. -/
theorem LevelEntry.default_bounds (l : LevelEntry) (h : l.wf) : 320 ≤ l.defaultEstimate ∧ l.defaultEstimate ≤ 1920 := by
  obtain ⟨-, -, h1, h2⟩ := h
  unfold LevelEntry.defaultEstimate
  omega

/-- The end of a hold keeps an entry's bounds. -/
theorem LevelEntry.openHold_wf (l : LevelEntry) : (l.wf → l.openHold.wf) ∧ l.openHold.zone = l.zone := by
  unfold LevelEntry.openHold
  split
  · refine ⟨fun h => ⟨h.1, ?_, h.2.2⟩, rfl⟩
    intro a ha
    obtain rfl : l.defaultEstimate = a := by simpa using ha
    exact l.default_bounds h
  · exact ⟨fun h => h, rfl⟩

/-- AMP-ON taken off keeps an entry's bounds. -/
theorem LevelEntry.ampTakenOff_wf (now : Instant) (t : Nat) (l : LevelEntry) :
    (l.wf → (l.ampTakenOff now t).wf) ∧ (l.ampTakenOff now t).zone = l.zone := by
  unfold LevelEntry.ampTakenOff
  split
  · exact l.openHold_wf
  · exact ⟨fun h => h, rfl⟩

/-- The ask of an attenuation. -/
theorem Works.askLevel_moves {w0 w : Works} (zone : Nat) (c : Cls) (h : Moves w0 w) : Moves w0 (w.askLevel zone c) :=
  Works.modLevel_moves zone _ (fun l => ⟨fun hl => ⟨attenuationFor_le l c, hl.2⟩, rfl⟩) h

/-- The report of AMP-ON. -/
theorem Works.reportAmp_moves {w0 w : Works} (e : Env) (zone : Nat) (a b : Bool) (h : Moves w0 w) :
    Moves w0 (w.reportAmp e zone a b) := by
  unfold Works.reportAmp
  split
  · exact h
  · split
    · exact Works.modLevel_moves zone _ (fun l => ⟨fun hl => hl, rfl⟩) h
    · exact Works.modLevel_moves zone _ (fun l => LevelEntry.ampTakenOff_wf _ _ l) h

end Sys2Proof.Machine
end

