-- ==== Sys2Proof/Laws/MovesZones.lean ====
section
/-! SUPPORT. What the Zone Arbiter's operations do to the works: moves, within the bounds of the zone records. -/

namespace Sys2Proof.Machine

open Sys2Proof

/-- A zone record found by its number is one of the records, and has that number. -/
theorem Works.zone_mem (w : Works) (zone : Nat) (z : ZoneRec) (h : w.zone zone = some z) : z ∈ w.zones.recs ∧ z.zone = zone := by
  unfold Works.zone at h
  exact ⟨List.mem_of_find?_eq_some h, by simpa using List.find?_some h⟩

/-- A later arrival order keeps the laws of a waiting list. -/
theorem ZoneRec.queueLaws_mono {z : ZoneRec} {m n : Nat} (hmn : m ≤ n) (h : z.queueLaws m) : z.queueLaws n :=
  ⟨h.1, fun x hx => (h.2.1 x hx).trans hmn, h.2.2⟩

/-- A zone record takes its place while the arrival order moves on to `n`. -/
theorem Works.setZoneAt_moves {w0 w : Works} (e : Env) (z : ZoneRec) (n : Nat) (hn : w.zones.arrivals ≤ n)
    (hz : w.zones.wf → (z.wf ∧ z.timersExact) ∧ z.queueLaws n) (h : Moves w0 w) :
    Moves w0 (Works.setZone e z { w with zones := { w.zones with arrivals := n } }) := by
  have h1 : Moves w0 { w with zones :=
      { recs := w.zones.recs.map (fun o => if o.zone = z.zone then z else o), arrivals := n } } := by
    refine h.zones _ ⟨?_, ?_⟩
    · intro hw o ho
      obtain ⟨x, hx, rfl⟩ := List.mem_map.mp ho
      split
      · exact hz hw
      · exact ⟨(hw x hx).1, ZoneRec.queueLaws_mono hn (hw x hx).2⟩
    · show ((w.zones.recs.map (fun o => if o.zone = z.zone then z else o)).map (·.zone)) = _
      rw [List.map_map]
      refine List.map_congr_left ?_
      intro o _
      simp only [Function.comp]
      split
      · rename_i h'; exact h'.symm
      · rfl
  exact Works.reportAmp_moves e _ _ _ h1

/-- A zone record takes its place. -/
theorem Works.setZone_moves {w0 w : Works} (e : Env) (z : ZoneRec)
    (hz : w.zones.wf → (z.wf ∧ z.timersExact) ∧ z.queueLaws w.zones.arrivals) (h : Moves w0 w) :
    Moves w0 (w.setZone e z) := Works.setZoneAt_moves e z w.zones.arrivals le_rfl hz h

/-- A zone with a holder speaks. -/
theorem Works.speak_moves {w0 w : Works} (e : Env) (z : ZoneRec)
    (hz : w.zones.wf → z.holder.isSome = true ∧ z.waiting.length ≤ waitingCapacity ∧ z.queueLaws w.zones.arrivals)
    (h : Moves w0 w) :
    Moves w0 (w.speak e z) := by
  have h1 : Moves w0 (w.setZone e { z with state := .speaking, settle := none, hold := none }) := by
    refine Works.setZone_moves e _ (fun hw => ?_) h
    obtain ⟨ha, hb, hc⟩ := hz hw
    refine ⟨⟨⟨by simp [ha], by simp, by simp, ?_, hb⟩, by simp, by simp⟩, hc⟩
    intro hn
    have hn' : z.holder = none := hn
    simp [hn'] at ha
  unfold Works.speak
  dsimp only
  split
  · exact Works.askLevel_moves _ _ h1
  · exact h1

/-- A waiting entry joins a list as one more. -/
theorem insertBy_length {α : Type} (le : α → α → Bool) (a : α) (l : List α) : (insertBy le a l).length = l.length + 1 := by
  induction l with
  | nil => rfl
  | cons b rest ih => unfold insertBy; split <;> simp [ih]

/-- The entries after an insertion. -/
theorem mem_insertBy {α : Type} (le : α → α → Bool) (a x : α) (l : List α) : x ∈ insertBy le a l ↔ x = a ∨ x ∈ l := by
  induction l with
  | nil => simp [insertBy]
  | cons b rest ih =>
    unfold insertBy
    split
    · simp only [List.mem_cons, ih]; tauto
    · simp

/-- An insertion only adds its entry. -/
theorem insertBy_perm {α : Type} (le : α → α → Bool) (a : α) (l : List α) : (insertBy le a l).Perm (a :: l) := by
  induction l with
  | nil => exact List.Perm.refl _
  | cons b rest ih =>
    unfold insertBy
    split
    · exact (ih.cons b).trans (List.Perm.swap a b rest)
    · exact List.Perm.refl _

/-- A waiting entry of a later arrival is placed in class order, and in arrival order within its class (R115). -/
theorem placeWaiter_ordered (x : Waiter) (l : List Waiter) (h : l.Pairwise Waiter.before) (hx : ∀ y ∈ l, y.order < x.order) :
    (placeWaiter x l).Pairwise Waiter.before := by
  unfold placeWaiter
  induction l with
  | nil => exact List.pairwise_singleton _ _
  | cons b rest ih =>
    have h' := List.pairwise_cons.mp h
    have hb0 := hx b List.mem_cons_self
    unfold insertBy
    split
    · rename_i hb
      have hb' : b.cls.rank ≤ x.cls.rank := by simpa [Cls.better] using hb
      refine List.pairwise_cons.mpr ⟨?_, ih h'.2 (fun y hy => hx y (List.mem_cons_of_mem _ hy))⟩
      intro y hy
      rcases (mem_insertBy _ x y rest).mp hy with rfl | hy
      · rcases Nat.lt_or_eq_of_le hb' with hlt | heq
        · exact Or.inl hlt
        · exact Or.inr ⟨heq, hb0⟩
      · exact h'.1 y hy
    · rename_i hb
      have hb' : x.cls.rank < b.cls.rank := by simpa [Cls.better] using hb
      refine List.pairwise_cons.mpr ⟨?_, h⟩
      intro y hy
      rcases List.mem_cons.mp hy with rfl | hy
      · exact Or.inl hb'
      · rcases h'.1 y hy with h1 | h1
        · exact Or.inl (hb'.trans h1)
        · exact Or.inl (h1.1 ▸ hb')

/-- The pairs of a waiting list are asker pairs of its record. -/
theorem ZoneRec.waiting_once (z : ZoneRec) (h : z.askers.Nodup) : (z.waiting.map (fun x => (x.node, x.tag))).Nodup :=
  h.sublist (List.sublist_append_right _ _)

/-- A part of a waiting list, with the same holder or none, keeps the laws of the list. -/
theorem ZoneRec.queueLaws_part {z z' : ZoneRec} {n : Nat} (h : z.queueLaws n) (hw : z'.waiting.Sublist z.waiting)
    (hh : z'.holder = z.holder ∨ z'.holder = none) : z'.queueLaws n := by
  refine ⟨h.1.sublist hw, fun x hx => h.2.1 x (hw.subset hx), ?_⟩
  rcases hh with hh | hh
  · refine h.2.2.sublist ?_
    unfold ZoneRec.askers
    rw [hh]
    exact (List.Sublist.refl _).append (hw.map _)
  · unfold ZoneRec.askers
    rw [hh]
    exact (z.waiting_once h.2.2).sublist (hw.map _)

/-- A new holder that is no asker yet keeps the laws of the list. -/
theorem ZoneRec.queueLaws_held {z z' : ZoneRec} {n : Nat} {hd : Holder} (h : z.queueLaws n) (hw : z'.waiting = z.waiting)
    (hh : z'.holder = some hd) (hn : (hd.node, hd.tag) ∉ z.askers) : z'.queueLaws n := by
  refine ⟨hw ▸ h.1, hw ▸ h.2.1, ?_⟩
  unfold ZoneRec.askers
  rw [hh, hw]
  exact List.nodup_cons.mpr ⟨fun hm => hn (List.mem_append_right _ hm), z.waiting_once h.2.2⟩

/-- A requester that holds no verdict is no asker of the zone (R110). -/
theorem currentVerdict_none {now : Instant} {z : ZoneRec} {node tag : Nat} (h : currentVerdict now z node tag = none) :
    (node, tag) ∉ z.askers := by
  intro hm
  rcases List.mem_append.mp hm with hm | hm
  · cases hh : z.holder with
    | none => simp [hh] at hm
    | some hd =>
      have hp : node = hd.node ∧ tag = hd.tag := by simpa [hh] using hm
      simp [currentVerdict, hh, hp.1, hp.2] at h
  · obtain ⟨x, hx, hxe⟩ := List.mem_map.mp hm
    have hp : x.node = node ∧ x.tag = tag := by simpa using hxe
    have h2 : z.waiting.any (fun x => x.node = node && x.tag = tag) = true :=
      List.any_eq_true.mpr ⟨x, hx, by simp [hp.1, hp.2]⟩
    unfold currentVerdict at h
    rw [h2] at h
    split at h <;> (try split at h) <;> simp at h

/-- A record without holder and waiting entries, its timers as its state says, keeps every law. -/
theorem ZoneRec.lawful_empty {z : ZoneRec} {n : Nat} (hh : z.holder = none) (hw : z.waiting = []) (hs : z.settle = none)
    (ht : (z.state = .idle ∧ z.hold = none) ∨ (z.state = .holding ∧ z.hold.isSome = true)) :
    (z.wf ∧ z.timersExact) ∧ z.queueLaws n := by
  rcases ht with ⟨h1, h2⟩ | ⟨h1, h2⟩ <;>
    simp [ZoneRec.wf, ZoneRec.timersExact, ZoneRec.queueLaws, ZoneRec.askers, hh, hw, hs, h1, h2]

/-- The bounds of a record with a holder and another waiting list. -/
theorem ZoneRec.withWaiting_wf (z : ZoneRec) (l : List Waiter) (hz : z.wf) (hh : z.holder = none → l = [])
    (hl : l.length ≤ waitingCapacity) : ({ z with waiting := l } : ZoneRec).wf :=
  ⟨hz.1, hz.2.1, hz.2.2.1, hh, hl⟩

/-- An ask is queued on a zone with a holder and a place. -/
theorem Works.queueAsk_moves {w0 w : Works} (e : Env) (z : ZoneRec) (a : Ask)
    (hz : w.zones.wf → (z.wf ∧ z.timersExact) ∧ z.queueLaws w.zones.arrivals ∧ z.holder.isSome = true
      ∧ z.waiting.length < waitingCapacity)
    (ha : (a.node, a.tag) ∉ z.askers) (h : Moves w0 w) : Moves w0 (w.queueAsk e z a).1 := by
  unfold Works.queueAsk
  dsimp only
  refine Works.setZoneAt_moves e _ _ (Nat.le_succ _) (fun hw => ?_) h
  obtain ⟨⟨h2, h3⟩, h4, h5, h6⟩ := hz hw
  refine ⟨⟨ZoneRec.withWaiting_wf z _ h2 ?_ ?_, h3⟩, ?_, ?_, ?_⟩
  · intro hn; simp [hn] at h5
  · unfold placeWaiter; rw [insertBy_length]; omega
  · exact placeWaiter_ordered _ _ h4.1 (fun y hy => Nat.lt_succ_of_le (h4.2.1 y hy))
  · intro y hy
    rcases (mem_insertBy _ _ y _).mp hy with rfl | hy
    · exact le_rfl
    · exact (h4.2.1 y hy).trans (Nat.le_succ _)
  · have hp : (((placeWaiter (waiterOf e (w.zones.arrivals + 1) a) z.waiting).map (fun x => (x.node, x.tag)))).Perm
        ((a.node, a.tag) :: z.waiting.map (fun x => (x.node, x.tag))) := (insertBy_perm _ _ _).map _
    unfold ZoneRec.askers
    refine ((List.Perm.append_left _ hp).trans List.perm_middle).nodup_iff.mpr ?_
    exact List.nodup_cons.mpr ⟨ha, h4.2.2⟩

/-- The best of a list is one of it. -/
theorem bestBy_mem {α : Type} (better : α → α → Bool) (l : List α) (x : α) (h : bestBy better l = some x) : x ∈ l := by
  induction l generalizing x with
  | nil => simp [bestBy] at h
  | cons a rest ih =>
    unfold bestBy at h
    split at h
    · simp at h; subst h; exact List.mem_cons_self
    · rename_i b hb
      split at h
      · simp at h; subst h; exact List.mem_cons_of_mem _ (ih _ hb)
      · simp at h; subst h; exact List.mem_cons_self

/-- A filter that removes an element is shorter. -/
theorem filter_ne_length_lt {α : Type} [DecidableEq α] (l : List α) (x : α) (h : x ∈ l) :
    (l.filter (fun y => y ≠ x)).length < l.length := by
  rw [List.length_filter_lt_length_iff_exists]
  exact ⟨x, h, by simp⟩

/-- The tests of an ask on a record. -/
theorem Works.askRecord_moves {w0 w : Works} (e : Env) (z : ZoneRec) (a : Ask)
    (hz : w.zones.wf → (z.wf ∧ z.timersExact) ∧ z.queueLaws w.zones.arrivals) (h : Moves w0 w) :
    Moves w0 (w.askRecord e z a).1 := by
  unfold Works.askRecord
  split
  · exact h
  · rename_i hv
    have ha := currentVerdict_none hv
    have held (hw : w.zones.wf) (z' : ZoneRec) (h1 : z'.waiting = z.waiting) (h2 : z'.holder = some (holderOf e.now a)) :
        z'.queueLaws w.zones.arrivals := ZoneRec.queueLaws_held (hz hw).2 h1 h2 ha
    split
    · exact h
    · split
      · rename_i hs
        dsimp only
        split
        · show Moves w0 (w.speak e { z with holder := some (holderOf e.now a) })
          exact Works.speak_moves e _ (fun hw => ⟨rfl, (hz hw).1.1.2.2.2.2, held hw _ rfl rfl⟩) h
        · refine Works.setZone_moves e _ (fun hw => ?_) h
          obtain ⟨⟨h1, h2⟩, _⟩ := hz hw
          have h4 : z.hold.isSome = false := by
            have := h2.2; rw [hs] at this; simpa using this
          exact ⟨⟨⟨by simp, by simp, by simp, by simp, h1.2.2.2.2⟩, by simp, by simp [h4]⟩, held hw _ rfl rfl⟩
      · show Moves w0 (w.speak e { z with holder := some (holderOf e.now a) })
        exact Works.speak_moves e _ (fun hw => ⟨rfl, (hz hw).1.1.2.2.2.2, held hw _ rfl rfl⟩) h
      · rename_i st hd hh hn1 hn2
        split
        · dsimp only
          split
          · exact Works.speak_moves e _ (fun hw => ⟨rfl, (hz hw).1.1.2.2.2.2, held hw _ rfl rfl⟩) h
          · refine Works.setZone_moves e _ (fun hw => ?_) h
            obtain ⟨⟨h1, h2⟩, _⟩ := hz hw
            refine ⟨⟨⟨?_, h1.2.1, h1.2.2.1, by simp, h1.2.2.2.2⟩, h2⟩, held hw _ rfl rfl⟩
            have := h1.1
            rw [hh] at this
            simpa using this
        · split
          · rename_i hl
            exact Works.queueAsk_moves e z a (fun hw => ⟨(hz hw).1, (hz hw).2, by simp [hh], hl⟩) ha h
          · split
            · rename_i x hx
              split
              · refine Works.queueAsk_moves e _ a (fun hw => ?_) ?_ h
                · obtain ⟨⟨h1, h2⟩, h3⟩ := hz hw
                  have hlt := filter_ne_length_lt z.waiting x (bestBy_mem _ _ _ hx)
                  have hle := h1.2.2.2.2
                  refine ⟨⟨ZoneRec.withWaiting_wf z _ h1 ?_ ?_, h2⟩,
                    ZoneRec.queueLaws_part h3 List.filter_sublist (Or.inl rfl), by simp [hh], ?_⟩
                  · intro hn; rw [hh] at hn; cases hn
                  · omega
                  · show (z.waiting.filter (fun y => y ≠ x)).length < waitingCapacity
                    omega
                · intro hm
                  refine ha ?_
                  unfold ZoneRec.askers at hm ⊢
                  exact ((List.Sublist.refl _).append (List.filter_sublist.map _)).subset hm
              · exact h
            · exact h
      · exact h

/-- The zones of an ask. -/
theorem Works.askZones_moves {w0 w : Works} (e : Env) (a : Ask) (zones : List Nat) (h : Moves w0 w) :
    Moves w0 (Works.askZones e a zones w).1 := by
  induction zones generalizing w with
  | nil => exact h
  | cons zone rest ih =>
    unfold Works.askZones
    split
    · exact ih h
    · rename_i z hz
      exact ih (Works.askRecord_moves e z a (fun hw => hw z (Works.zone_mem w zone z hz).1) h)

/-- Revocations. -/
theorem Works.revoke_moves {w0 w : Works} (e : Env) (rs : List Revocation) (h : Moves w0 w) : Moves w0 (w.revoke e rs) := by
  unfold Works.revoke
  exact Works.handAll_moves e _ (Works.postAll_moves _ h)

/-- An unsolicited verdict. -/
theorem Works.tell_moves {w0 w : Works} (e : Env) (x : Waiter) (zone : Nat) (v : Verdict) (h : Moves w0 w) :
    Moves w0 (w.tell e x zone v) := by
  unfold Works.tell
  split
  · exact Works.post_moves _ h
  · exact Works.hand_moves e _ _ h

/-- The head of a waiting list that passes, with the entries behind it, is a part of the list. -/
theorem nextHead_sublist (e : Env) (w : Works) (z : ZoneRec) (l : List Waiter) (x : Waiter) (rest : List Waiter)
    (h : (nextHead e w z l).2 = some (x, rest)) : (x :: rest).Sublist l := by
  induction l with
  | nil => simp [nextHead] at h
  | cons y ys ih =>
    unfold nextHead at h
    split at h
    · simp only [Option.some.injEq, Prod.mk.injEq] at h
      obtain ⟨rfl, rfl⟩ := h
      exact List.Sublist.refl _
    · exact (ih h).trans (List.sublist_cons_self _ _)

/-- A zone moves on. -/
theorem Works.moveOn_moves {w0 w : Works} (e : Env) (z : ZoneRec) (old : Cls)
    (hz : w.zones.wf → (z.state = .settling ∨ z.state = .speaking) ∧ z.timersExact
      ∧ z.waiting.length ≤ waitingCapacity ∧ z.queueLaws w.zones.arrivals) (h : Moves w0 w) : Moves w0 (w.moveOn e z old) := by
  unfold Works.moveOn
  dsimp only
  split
  · rename_i x rest hx
    have hsub := nextHead_sublist e w z z.waiting x rest hx
    have h1 : Moves w0 (w.setZone e { z with holder := some (holderOf e.now x.ask), waiting := rest }) := by
      refine Works.setZone_moves e _ (fun hw => ?_) h
      obtain ⟨ha, hb, hc, hd⟩ := hz hw
      refine ⟨⟨⟨by simpa using ha, hb.1.mpr, ?_, by simp, ?_⟩, hb⟩, hd.1.sublist ?_, ?_, ?_⟩
      · intro hs
        have hs' : z.state = .holding := hs
        rcases ha with h' | h' <;> rw [hs'] at h' <;> cases h'
      · exact le_trans (le_trans (Nat.le_succ _) hsub.length_le) hc
      · exact (List.sublist_cons_self _ _).trans hsub
      · exact fun y hy => hd.2.1 y (hsub.subset (List.mem_cons_of_mem _ hy))
      · exact (z.waiting_once hd.2.2).sublist (hsub.map (fun y : Waiter => (y.node, y.tag)))
    refine Works.tell_moves e x _ _ (Moves.foldl _ (fun _ _ => Works.tell_moves e _ _ _ .refl) _ ?_)
    split
    · exact Works.askLevel_moves _ _ h1
    · exact h1
  · refine Moves.foldl _ (fun _ _ => Works.tell_moves e _ _ _ .refl) _ ?_
    refine Works.setZone_moves e _ (fun hw => ?_) h
    split
    · exact ZoneRec.lawful_empty rfl rfl rfl (Or.inl ⟨rfl, rfl⟩)
    · exact ZoneRec.lawful_empty rfl rfl rfl (Or.inr ⟨rfl, rfl⟩)

/-- What the laws say of a zone whose holder goes. -/
theorem ZoneRec.held (z : ZoneRec) (h : Holder) {n : Nat} (hz : (z.wf ∧ z.timersExact) ∧ z.queueLaws n)
    (hh : z.holder = some h) :
    (z.state = .settling ∨ z.state = .speaking) ∧ z.timersExact ∧ z.waiting.length ≤ waitingCapacity
      ∧ ({ z with holder := none } : ZoneRec).queueLaws n :=
  ⟨hz.1.1.1.mpr (by simp [hh]), hz.1.2, hz.1.1.2.2.2.2, ZoneRec.queueLaws_part hz.2 (List.Sublist.refl _) (Or.inr rfl)⟩

/-- A filter of the waiting list keeps a record's laws. -/
theorem ZoneRec.filtered (z : ZoneRec) (p : Waiter → Bool) {n : Nat} (hz : (z.wf ∧ z.timersExact) ∧ z.queueLaws n) :
    (({ z with waiting := z.waiting.filter p } : ZoneRec).wf ∧ ({ z with waiting := z.waiting.filter p } : ZoneRec).timersExact)
      ∧ ({ z with waiting := z.waiting.filter p } : ZoneRec).queueLaws n := by
  refine ⟨⟨ZoneRec.withWaiting_wf z _ hz.1.1 ?_ (le_trans (List.length_filter_le _ _) hz.1.1.2.2.2.2), hz.1.2⟩,
    ZoneRec.queueLaws_part hz.2 List.filter_sublist (Or.inl rfl)⟩
  intro hn
  simp [hz.1.1.2.2.2.1 hn]

/-- A leave of one zone. -/
theorem Works.leaveOne_moves {w0 w : Works} (e : Env) (node tag zone : Nat) (h : Moves w0 w) :
    Moves w0 (w.leaveOne e node tag zone) := by
  unfold Works.leaveOne
  split
  · exact h
  · rename_i z hz
    have hm := (Works.zone_mem w zone z hz).1
    split
    · rename_i hd hh
      split
      · exact Works.moveOn_moves e _ _ (fun hw => ZoneRec.held z hd (hw z hm) hh) h
      · exact Works.setZone_moves e _ (fun hw => ZoneRec.filtered z _ (hw z hm)) h
    · exact h

/-- A leave of several zones. -/
theorem Works.leaveZones_moves {w0 w : Works} (e : Env) (node tag : Nat) (zones : List Nat) (h : Moves w0 w) :
    Moves w0 (w.leaveZones e node tag zones) := Moves.foldl _ (fun _ _ => Works.leaveOne_moves e _ _ _ .refl) _ h

/-- The verdicts of an ask name zones of its list, in its order, each place at most once. -/
theorem Works.askZones_sublist (e : Env) (a : Ask) (zones : List Nat) (w : Works) :
    ((Works.askZones e a zones w).2.1.map (·.1)).Sublist zones := by
  induction zones generalizing w with
  | nil => exact List.Sublist.refl _
  | cons zone rest ih =>
    unfold Works.askZones
    split
    · exact (ih w).cons _
    · exact (ih _).cons_cons _

/-- A list of first places has no item twice. -/
theorem firstPlaces_nodup (l : List Nat) : (firstPlaces l).Nodup := by
  induction l with
  | nil => exact List.nodup_nil
  | cons x rest ih => exact List.nodup_cons.mpr ⟨by simp, ih.filter _⟩

/-- A ZONE-ANSWER names no zone twice (R118), so it has at most as many verdicts as zones are homed here (R189). -/
theorem Works.askZones_nodup (e : Env) (a : Ask) (zones : List Nat) (w : Works) :
    ((Works.askZones e a (firstPlaces zones) w).2.1.map (·.1)).Nodup :=
  (firstPlaces_nodup zones).sublist (Works.askZones_sublist e a _ w)

/-- A ZONE-ASK frame. -/
theorem Works.askFrame_moves {w0 w : Works} (e : Env) (f : Frame) (tag trunk duration : Nat) (zones : List Nat)
    (h : Moves w0 w) : Moves w0 (w.askFrame e f tag trunk duration zones) := by
  unfold Works.askFrame
  dsimp only
  split
  · have h1 := fun a => Works.revoke_moves e (Works.askZones e a (firstPlaces zones) w).2.2 (Works.askZones_moves e a (firstPlaces zones) h)
    split
    · exact h1 _
    · exact Works.hand_moves e _ _ (h1 _)
  · exact h

/-- A ZONE-LEAVE frame. -/
theorem Works.leaveFrame_moves {w0 w : Works} (e : Env) (f : Frame) (tag : Nat) (zones : List Nat) (h : Moves w0 w) :
    Moves w0 (w.leaveFrame e f tag zones) := by
  unfold Works.leaveFrame
  split
  · exact Works.leaveZones_moves e _ _ _ h
  · exact h

/-- The settle timer. -/
theorem Works.settleExpires_moves {w0 w : Works} (e : Env) (zone : Nat) (h : Moves w0 w) :
    Moves w0 (w.settleExpires e zone) := by
  unfold Works.settleExpires
  split
  · rename_i z hz
    split
    · rename_i hs
      refine Works.speak_moves e z (fun hw => ?_) h
      have hk := hw z (Works.zone_mem w zone z hz).1
      exact ⟨hk.1.1.1.mp (Or.inl hs.1), hk.1.1.2.2.2.2, hk.2⟩
    · exact h
  · exact h

/-- The hold timer. -/
theorem Works.holdExpires_moves {w0 w : Works} (e : Env) (zone : Nat) (h : Moves w0 w) : Moves w0 (w.holdExpires e zone) := by
  unfold Works.holdExpires
  split
  · rename_i z hz
    split
    · rename_i hs
      refine Works.setZone_moves e _ (fun hw => ?_) h
      have hk := hw z (Works.zone_mem w zone z hz).1
      have hn : z.holder = none := by
        cases hh : z.holder with
        | none => rfl
        | some x =>
          have := hk.1.1.1.mpr (by simp [hh])
          rcases this with h' | h' <;> rw [hs.1] at h' <;> cases h'
      have hset : z.settle.isSome = false := by
        have := hk.1.2.1; rw [hs.1] at this; simpa using this
      exact ⟨⟨⟨by simp [hn], by simp, by simp, hk.1.1.2.2.2.1, hk.1.1.2.2.2.2⟩, by simp [hset], by simp⟩,
        ZoneRec.queueLaws_part hk.2 (List.Sublist.refl _) (Or.inl rfl)⟩
    · exact h
  · exact h

/-- The expiry timer of a holder. -/
theorem Works.holderExpires_moves {w0 w : Works} (e : Env) (zone : Nat) (h : Moves w0 w) :
    Moves w0 (w.holderExpires e zone) := by
  unfold Works.holderExpires
  split
  · rename_i z hz
    split
    · rename_i hd hh
      have hr : Moves w (w.revoke e [hd.revoke zone .expired]) := Works.revoke_moves e _ .refl
      refine h.trans (Works.moveOn_moves e _ _ (fun hw => ?_) hr)
      have hzs : (w.revoke e [hd.revoke zone .expired]).zones = w.zones := by
        unfold Works.revoke Works.handAll
        have hand_zones : ∀ (x : Works) (f : Frame), (x.hand e f .plain).zones = x.zones := by
          intro x f
          unfold Works.hand Works.unsent
          repeat' split
          all_goals rfl
        have fold_zones : ∀ (fs : List Frame) (x : Works), (fs.foldl (fun w f => w.hand e f .plain) x).zones = x.zones := by
          intro fs
          induction fs with
          | nil => intro x; rfl
          | cons f rest ih => intro x; rw [List.foldl_cons, ih, hand_zones]
        rw [fold_zones]
        rfl
      rw [hzs] at hw ⊢
      exact ZoneRec.held z hd (hw z (Works.zone_mem w zone z hz).1) hh
    · exact h
  · exact h

/-- The wait timer of a waiting entry. -/
theorem Works.waitExpires_moves {w0 w : Works} (e : Env) (zone node tag : Nat) (h : Moves w0 w) :
    Moves w0 (w.waitExpires e zone node tag) := by
  unfold Works.waitExpires
  split
  · rename_i z hz
    split
    · exact Works.revoke_moves e _ (Works.setZone_moves e _
        (fun hw => ZoneRec.filtered z _ (hw z (Works.zone_mem w zone z hz).1)) h)
    · exact h
  · exact h

/-- Entry to ISOLATED in one zone. -/
theorem Works.isolateZone_moves {w0 w : Works} (e : Env) (zone : Nat) (h : Moves w0 w) : Moves w0 (w.isolateZone e zone) := by
  unfold Works.isolateZone
  split
  · exact h
  · rename_i z hz
    have hm := (Works.zone_mem w zone z hz).1
    dsimp only
    split
    · rename_i hd hh
      split
      · exact Works.setZone_moves e _ (fun hw => ZoneRec.filtered z _ (hw z hm)) h
      · exact Works.moveOn_moves e _ _ (fun hw => ZoneRec.held { z with waiting := z.waiting.filter (fun x => x.node = e.part.node) } hd
          (ZoneRec.filtered z _ (hw z hm)) hh) h
    · exact Works.setZone_moves e _ (fun hw => ZoneRec.filtered z _ (hw z hm)) h

/-- Entry to ISOLATED at the arbiter. -/
theorem Works.isolateZones_moves {w0 w : Works} (e : Env) (h : Moves w0 w) : Moves w0 (w.isolateZones e) :=
  Moves.foldl _ (fun _ _ => Works.isolateZone_moves e _ .refl) _ h

/-- Service reset at the arbiter. -/
theorem Works.resetZones_moves {w0 w : Works} (e : Env) (h : Moves w0 w) : Moves w0 (w.resetZones e) := by
  unfold Works.resetZones
  refine Moves.foldl _ (fun x z => Works.setZone_moves e _ (fun _ => ?_) .refl) _ h
  exact ZoneRec.lawful_empty rfl rfl rfl (Or.inl ⟨rfl, rfl⟩)

end Sys2Proof.Machine
end

