-- ==== Sys2Proof/Laws/MovesPlayout.lean ====
section
/-! SUPPORT. What the operations of the fetch streams and the playout channels do to the works: moves. -/

namespace Sys2Proof.Machine

open Sys2Proof

/-- Items placed in a FIFO. -/
theorem Works.place_moves {w0 w : Works} (n : Nat) (items : List FifoItem) (h : Moves w0 w) :
    Moves w0 (w.place n items) := by
  unfold Works.place
  all_goals apply_rules [Works.modChannel_moves]

/-- A PHRASE-FAILED marker placed. -/
theorem Works.placeFailed_moves {w0 w : Works} (n position : Nat) (essential : Bool) (h : Moves w0 w) :
    Moves w0 (w.placeFailed n position essential) := by
  unfold Works.placeFailed
  all_goals apply_rules [Works.modChannel_moves]

/-- A phrase fails. -/
theorem Works.failPhrase_moves {w0 w : Works} (n position : Nat) (essential : Bool) (h : Moves w0 w) :
    Moves w0 (w.failPhrase n position essential) := by
  unfold Works.failPhrase
  all_goals apply_rules [Works.post_moves, Works.placeFailed_moves, Moves.bump]

/-- The stream takes up entries of its list. -/
theorem Works.takeUp_moves {w0 w : Works} (n pos : Nat) (l : List ListEntry) (h : Moves w0 w) :
    Moves w0 (Works.takeUp n pos l w) := by
  induction l generalizing pos w with
  | nil => exact Works.modStream_moves _ _ (Works.place_moves _ _ h)
  | cons x rest ih =>
    cases x with
    | gap item len =>
      have h1 := Works.modStream_moves n (fun s : Stream => { s with position := pos, remaining := 0 })
        (Works.place_moves n [.gap pos item len] h)
      unfold Works.takeUp
      dsimp only
      split
      · exact Works.modStream_moves _ _ h1
      · exact ih _ h1
    | phrase p =>
      have h1 := Works.modStream_moves n (fun s : Stream => { s with position := pos, remaining := 0 }) h
      unfold Works.takeUp
      dsimp only
      split
      · have h2 := Works.place_moves n [.silence pos p.item] h1
        split
        · exact Works.modStream_moves _ _ h2
        · exact ih _ h2
      · split
        · have h2 := Works.failPhrase_moves n pos p.essential h1
          split
          · exact Works.modStream_moves _ _ h2
          · split
            · exact Works.modStream_moves _ _ h2
            · exact ih _ h2
        · exact Works.modStream_moves _ _ (Works.place_moves _ _ h1)

/-- The stream or the FIFO has changed. -/
theorem Works.fetchChanged_moves {w0 w : Works} (n : Nat) (h : Moves w0 w) :
    Moves w0 (w.fetchChanged n) := by
  unfold Works.fetchChanged
  all_goals apply_rules [Works.postAll_moves]

/-- The stream moves on. -/
theorem Works.nextEntry_moves {w0 w : Works} (n : Nat) (h : Moves w0 w) :
    Moves w0 (w.nextEntry n) := by
  unfold Works.nextEntry
  try dsimp only
  repeat' split
  all_goals apply_rules [Works.modStream_moves, Works.takeUp_moves]

/-- A start of a stream. -/
theorem Works.beginList_moves {w0 w : Works} (e : Env) (n : Nat) (list : List ListEntry) (h : Moves w0 w) :
    Moves w0 (w.beginList e n list) := by
  unfold Works.beginList
  all_goals apply_rules [Works.fetchChanged_moves, Works.takeUp_moves, Works.modStream_moves]

/-- A start of a stream. -/
theorem Works.startStream_moves {w0 w : Works} (e : Env) (n : Nat) (list : List ListEntry) (h : Moves w0 w) :
    Moves w0 (w.startStream e n list) := by
  unfold Works.startStream
  try dsimp only
  repeat' split
  all_goals apply_rules [Works.modStream_moves, Works.beginList_moves]

/-- A stream in ENDING has its read. -/
theorem Works.streamSettled_moves {w0 w : Works} (e : Env) (n : Nat) (h : Moves w0 w) :
    Moves w0 (w.streamSettled e n) := by
  unfold Works.streamSettled
  try dsimp only
  repeat' split
  all_goals apply_rules [Works.modStream_moves, Works.post_moves, Works.modChannel_moves, Works.beginList_moves]

/-- The flash side changes but for its cache and its streams' number. -/
theorem Moves.flashSame {w0 w : Works} (f : Flash) (hc : f.cache = w.flash.cache) (hs : f.streams = w.flash.streams)
    (h : Moves w0 w) : Moves w0 { w with flash := f } := h.flash f hc (by rw [hs])

/-- A stream's read is issued. -/
theorem Works.issueAudio_moves {w0 w : Works} (n : Nat) (h : Moves w0 w) : Moves w0 (w.issueAudio n) := by
  unfold Works.issueAudio
  split
  · exact h
  · exact (Works.modStream_moves n _ h).flashSame _ rfl rfl

/-- The flash arbiter looks. -/
theorem Works.lookAtFlash_moves {w0 w : Works} (e : Env) (h : Moves w0 w) : Moves w0 (w.lookAtFlash e) := by
  unfold Works.lookAtFlash
  split
  · exact h
  · split
    · exact Works.issueAudio_moves _ h
    · split
      · exact h
      · exact h.flashSame _ rfl rfl

/-- A binding asks for a read. -/
theorem Works.askRead_moves {w0 w : Works} (channel : Nat) (read : BindRead) (h : Moves w0 w) :
    Moves w0 (w.askRead channel read) := Works.post_moves _ (h.flashSame _ rfl rfl)

/-- The reads of a channel are dropped. -/
theorem Works.dropReads_moves {w0 w : Works} (channel : Nat) (h : Moves w0 w) : Moves w0 (w.dropReads channel) :=
  h.flashSame _ rfl rfl

/-- The port comes free. -/
theorem Works.freePort_moves {w0 w : Works} (h : Moves w0 w) : Moves w0 w.freePort := h.flashSame _ rfl rfl

/-- A good read. -/
theorem Works.goodRead_moves {w0 w : Works} (n : Nat) (p : PhraseEntry) (data : List Byte) (e : Env) (h : Moves w0 w) :
    Moves w0 (w.goodRead n p data e) := by
  unfold Works.goodRead
  try dsimp only
  repeat' split
  all_goals apply_rules [Works.nextEntry_moves, Works.place_moves, Works.modStream_moves]

/-- The phrase being read fails. -/
theorem Works.failCurrent_moves {w0 w : Works} (n : Nat) (p : PhraseEntry) (h : Moves w0 w) :
    Moves w0 (w.failCurrent n p) := by
  unfold Works.failCurrent
  try dsimp only
  repeat' split
  all_goals apply_rules [Works.failPhrase_moves, Works.modStream_moves, Works.nextEntry_moves]

/-- An answered read. -/
theorem Works.takeAudio_moves {w0 w : Works} (n : Nat) (p : PhraseEntry) (r : InFlight) (data : List Byte) (e : Env) (h : Moves w0 w) :
    Moves w0 (w.takeAudio n p r data e) := by
  unfold Works.takeAudio
  try dsimp only
  repeat' split
  all_goals apply_rules [Works.goodRead_moves, Works.failCurrent_moves, Works.modStream_moves, Moves.bump]

/-- The start condition is tested. -/
theorem Works.testStart_moves {w0 w : Works} (e : Env) (n : Nat) (h : Moves w0 w) :
    Moves w0 (w.testStart e n) := by
  unfold Works.testStart
  try dsimp only
  repeat' split
  all_goals apply_rules [Works.post_moves, Works.modChannel_moves]

/-- The start order. -/
theorem Works.startPlaying_moves {w0 w : Works} (n : Nat) (trunk : Option Nat) (h : Moves w0 w) :
    Moves w0 (w.startPlaying n trunk) := by
  unfold Works.startPlaying
  all_goals apply_rules [Works.modChannel_moves]

/-- The release. -/
theorem Works.release_moves {w0 w : Works} (n : Nat) (h : Moves w0 w) :
    Moves w0 (w.release n) := by
  unfold Works.release
  try dsimp only
  repeat' split
  all_goals apply_rules [Works.modChannel_moves, Works.modStream_moves, Works.post_moves]

/-- The channel is let go. -/
theorem Works.letGo_moves {w0 w : Works} (n : Nat) (h : Moves w0 w) :
    Moves w0 (w.letGo n) := by
  unfold Works.letGo
  try dsimp only
  repeat' split
  all_goals apply_rules [Works.release_moves]

/-- The stop at the phrase boundary. -/
theorem Works.stopAtBoundary_moves {w0 w : Works} (n : Nat) (h : Moves w0 w) :
    Moves w0 (w.stopAtBoundary n) := by
  unfold Works.stopAtBoundary
  try dsimp only
  repeat' split
  all_goals apply_rules [Works.release_moves, Works.post_moves, Works.fetchChanged_moves, Works.modStream_moves, Works.modChannel_moves]

/-- A channel is bound to a job. -/
theorem Works.reserve_moves {w0 w : Works} (n : Nat) (h : Moves w0 w) :
    Moves w0 (w.reserve n) := by
  unfold Works.reserve
  try dsimp only
  repeat' split
  all_goals apply_rules [Works.modChannel_moves]

/-- The channel fills. -/
theorem Works.fillFrom_moves {w0 w : Works} (e : Env) (n : Nat) (list : List ListEntry) (h : Moves w0 w) :
    Moves w0 (w.fillFrom e n list) := by
  unfold Works.fillFrom
  all_goals apply_rules [Works.startStream_moves, Works.modChannel_moves]

/-- The stop entry has ended. -/
theorem Works.stopEnds_moves {w0 w : Works} (n : Nat) (h : Moves w0 w) :
    Moves w0 (w.stopEnds n) := by
  unfold Works.stopEnds
  all_goals apply_rules [Works.release_moves, Works.post_moves]

/-- Underrun periods. -/
theorem Works.starve_moves {w0 w : Works} (n k : Nat) (h : Moves w0 w) :
    Moves w0 (w.starve n k) := by
  unfold Works.starve
  try dsimp only
  repeat' split
  all_goals apply_rules [Works.post_moves, Works.modChannel_moves, Moves.bump]

/-- A gap or silence is over. -/
theorem Works.silentEntryEnds_moves {w0 w : Works} (n : Nat) (p : Playing) (h : Moves w0 w) :
    Moves w0 (w.silentEntryEnds n p) := by
  unfold Works.silentEntryEnds
  try dsimp only
  repeat' split
  all_goals apply_rules [Works.stopEnds_moves, Works.modChannel_moves]

/-- A channel takes from the head of its FIFO. -/
theorem Works.takeHead_moves {w0 w : Works} (n fuel : Nat) (h : Moves w0 w) : Moves w0 (Works.takeHead n fuel w) := by
  induction fuel generalizing w with
  | zero => exact h
  | succ fuel ih =>
    unfold Works.takeHead
    dsimp only
    repeat' split
    all_goals apply_rules [ih, Works.silentEntryEnds_moves, Works.modChannel_moves, Works.starve_moves,
      Works.fetchChanged_moves, Works.stopEnds_moves, Works.release_moves, Works.post_moves]

/-- One sample period of a channel. -/
theorem Works.period_moves {w0 w : Works} (n : Nat) (h : Moves w0 w) :
    Moves w0 (w.period n) := by
  unfold Works.period
  try dsimp only
  repeat' split
  all_goals apply_rules [Works.takeHead_moves]

end Sys2Proof.Machine
end

