-- ==== Sys2Proof/Laws/MovesTrunks.lean ====
section
/-! SUPPORT. What the operations of the Trunk and Request Unit do to the works: moves. -/

namespace Sys2Proof.Machine

open Sys2Proof

/-- A record's trunk. -/
theorem Works.setJobTrunk_moves {w0 w : Works} (tag : Nat) (t : Option Nat) (h : Moves w0 w) :
    Moves w0 (w.modJob tag (fun r => { r with trunk := t })) := Works.modJob_moves tag _ (fun _ => rfl) h

/-- Leaves of some entries. -/
theorem Works.giveBack_moves {w0 w : Works} (e : Env) (r : JobRec) (gs : List Grant) (h : Moves w0 w) :
    Moves w0 (w.giveBack e r gs) := by
  unfold Works.giveBack
  try dsimp only
  repeat' split
  all_goals apply_rules [Works.leaveZones_moves, Works.hand_moves]

/-- The trunk field becomes absent. -/
theorem Works.dropTrunk_moves {w0 w : Works} (r : JobRec) (h : Moves w0 w) :
    Moves w0 (w.dropTrunk r) := by
  unfold Works.dropTrunk
  try dsimp only
  repeat' split
  all_goals apply_rules [Works.modChannel_moves, Works.setJobTrunk_moves]

/-- The trunk is given up. -/
theorem Works.giveUpTrunk_moves {w0 w : Works} (e : Env) (r : JobRec) (h : Moves w0 w) :
    Moves w0 (w.giveUpTrunk e r) := by
  unfold Works.giveUpTrunk
  try dsimp only
  repeat' split
  all_goals apply_rules [Works.hand_moves, Works.dropTrunk_moves]

/-- A seize in flight is abandoned. -/
theorem Works.abandonSeize_moves {w0 w : Works} (r : JobRec) (h : Moves w0 w) :
    Moves w0 (w.abandonSeize r) := by
  unfold Works.abandonSeize
  try dsimp only
  repeat' split
  all_goals apply_rules [Works.withdrawSeize_moves]

/-- All a job holds is given up. -/
theorem Works.releaseGathering_moves {w0 w : Works} (e : Env) (tag : Nat) (h : Moves w0 w) :
    Moves w0 (w.releaseGathering e tag) := by
  unfold Works.releaseGathering
  try dsimp only
  repeat' split
  all_goals apply_rules [Works.modGather_moves, Works.giveUpTrunk_moves, Works.abandonSeize_moves, Works.giveBack_moves]

/-- A trunk round has failed. -/
theorem Works.trunkRoundFails_moves {w0 w : Works} (e : Env) (r : JobRec) (h : Moves w0 w) :
    Moves w0 (w.trunkRoundFails e r) := by
  unfold Works.trunkRoundFails
  try dsimp only
  repeat' split
  all_goals apply_rules [Works.modGather_moves, Works.post_moves]

/-- A trunk is chosen. -/
theorem Works.chooseTrunk_moves {w0 w : Works} (e : Env) (tag : Nat) (h : Moves w0 w) :
    Moves w0 (w.chooseTrunk e tag) := by
  unfold Works.chooseTrunk
  try dsimp only
  repeat' split
  all_goals apply_rules [Works.hand_moves, Works.modGather_moves, Works.trunkRoundFails_moves]

/-- A SEIZE was not sent. -/
theorem Works.seizeUnsent_moves {w0 w : Works} (e : Env) (tag trunk : Nat) (h : Moves w0 w) :
    Moves w0 (w.seizeUnsent e tag trunk) := by
  unfold Works.seizeUnsent
  try dsimp only
  repeat' split
  all_goals apply_rules [Works.chooseTrunk_moves, Works.modGather_moves]

/-- The wait between trunk rounds ends. -/
theorem Works.trunkWaitEnds_moves {w0 w : Works} (e : Env) (tag : Nat) (h : Moves w0 w) :
    Moves w0 (w.trunkWaitEnds e tag) := by
  unfold Works.trunkWaitEnds
  try dsimp only
  repeat' split
  all_goals apply_rules [Works.chooseTrunk_moves, Works.modGather_moves]

/-- A view entry has become FREE. -/
theorem Works.viewFreed_moves {w0 w : Works} (e : Env) (h : Moves w0 w) : Moves w0 (w.viewFreed e) :=
  Moves.foldl _ (fun _ _ => Works.trunkWaitEnds_moves e _ .refl) _ h

/-- A zone round fails. -/
theorem Works.roundFails_moves {w0 w : Works} (e : Env) (tag : Nat) (conflict : Bool) (h : Moves w0 w) :
    Moves w0 (w.roundFails e tag conflict) := by
  unfold Works.roundFails
  try dsimp only
  repeat' split
  all_goals apply_rules [Works.post_moves, Works.modGather_moves, Works.giveUpTrunk_moves, Works.giveBack_moves]

/-- A required zone is lost. -/
theorem Works.losesZone_moves {w0 w : Works} (e : Env) (tag : Nat) (u : UnitReport) (h : Moves w0 w) :
    Moves w0 (w.losesZone e tag u) := Works.post_moves _ (Works.releaseGathering_moves e tag h)

/-- A trunk conflict. -/
theorem Works.trunkConflict_moves {w0 w : Works} (e : Env) (tag : Nat) (h : Moves w0 w) :
    Moves w0 (w.trunkConflict e tag) := by
  unfold Works.trunkConflict
  repeat' split
  all_goals apply_rules [Works.losesZone_moves, Works.roundFails_moves]

/-- A QUEUED verdict. -/
theorem Works.takeQueued_moves {w0 w : Works} (e : Env) (tag : Nat) (entry : Grant) (position : Nat) (h : Moves w0 w) :
    Moves w0 (w.takeQueued e tag entry position) := by
  unfold Works.takeQueued
  try dsimp only
  repeat' split
  all_goals apply_rules [Works.losesZone_moves, Works.modGrants_moves]

/-- A denial. -/
theorem Works.takeDenial_moves {w0 w : Works} (e : Env) (tag : Nat) (entry : Grant) (reason : Denial) (h : Moves w0 w) :
    Moves w0 (w.takeDenial e tag entry reason) := by
  unfold Works.takeDenial
  try dsimp only
  repeat' split
  all_goals apply_rules [Works.trunkConflict_moves, Works.roundFails_moves, Works.missed_moves, Works.modGrants_moves]

/-- A verdict is taken. -/
theorem Works.takeVerdict_moves {w0 w : Works} (e : Env) (tag : Nat) (entry : Grant) (v : Verdict) (h : Moves w0 w) :
    Moves w0 (w.takeVerdict e tag entry v) := by
  unfold Works.takeVerdict
  try dsimp only
  repeat' split
  all_goals apply_rules [Works.flag_moves, Works.modGrants_moves, Works.takeQueued_moves, Works.takeDenial_moves]

/-- The test after a verdict. -/
theorem Works.testRound_moves {w0 w : Works} (e : Env) (tag : Nat) (h : Moves w0 w) :
    Moves w0 (w.testRound e tag) := by
  unfold Works.testRound
  try dsimp only
  repeat' split
  all_goals apply_rules [Works.post_moves, Works.modGather_moves]

/-- A late answer. -/
theorem Works.lateAnswer_moves {w0 w : Works} (e : Env) (tag zone : Nat) (v : Verdict) (remote : Option Cls) (h : Moves w0 w) :
    Moves w0 (w.lateAnswer e tag zone v remote) := by
  unfold Works.lateAnswer
  try dsimp only
  repeat' split
  all_goals apply_rules [Works.leaveZones_moves, Works.hand_moves]

/-- A verdict reaches the unit. -/
theorem Works.verdictReaches_moves {w0 w : Works} (e : Env) (tag zone : Nat) (v : Verdict) (remote : Option Cls) (h : Moves w0 w) :
    Moves w0 (w.verdictReaches e tag zone v remote) := by
  unfold Works.verdictReaches
  try dsimp only
  repeat' split
  all_goals apply_rules [Works.testRound_moves, Works.takeVerdict_moves, Works.lateAnswer_moves]

/-- A ZONE-ANSWER frame. -/
theorem Works.answerFrame_moves {w0 w : Works} (e : Env) (f : Frame) (tag : Nat) (verdicts : List (Nat × Verdict))
    (h : Moves w0 w) : Moves w0 (w.answerFrame e f tag verdicts) := by
  have h1 : Moves w0 (verdicts.foldl (fun w v => w.verdictReaches e tag v.1 v.2 (some f.cls)) w) :=
    Moves.foldl _ (fun _ _ => Works.verdictReaches_moves e _ _ _ _ .refl) _ h
  unfold Works.answerFrame
  dsimp only
  repeat' split
  all_goals first
    | exact h1
    | exact Works.modGather_moves _ _ h1

/-- The local ask. -/
theorem Works.askOwn_moves {w0 w : Works} (e : Env) (r : JobRec) (h : Moves w0 w) : Moves w0 (w.askOwn e r) := by
  unfold Works.askOwn
  dsimp only
  split
  · exact h
  · refine Moves.foldl _ (fun x v => ?_) _ (Works.revoke_moves e _ (Works.askZones_moves e _ _ h))
    split
    · split
      · exact Works.modGrants_moves _ _ .refl
      · exact Works.testRound_moves e _ (Works.takeVerdict_moves e _ _ _ .refl)
    · exact .refl

/-- The ask of the remote zones. -/
theorem Works.askOthers_moves {w0 w : Works} (e : Env) (r : JobRec) (h : Moves w0 w) : Moves w0 (w.askOthers e r) := by
  unfold Works.askOthers
  dsimp only
  split
  · exact h
  · exact h
  · exact Works.hand_moves e _ _ (Works.modGather_moves _ _ (h.line _ ⟨fun x => x, rfl, rfl, rfl, rfl, rfl⟩))

/-- A zone round begins. -/
theorem Works.startRound_moves {w0 w : Works} (e : Env) (tag : Nat) (h : Moves w0 w) : Moves w0 (w.startRound e tag) := by
  unfold Works.startRound
  split
  · exact h
  · dsimp only
    repeat' split
    all_goals apply_rules [Works.roundFails_moves, Works.testRound_moves, Works.modGather_moves, Works.askOthers_moves,
      Works.askOwn_moves, Works.missed_moves]

/-- The answer timers start. -/
theorem Works.startAnswers_moves {w0 w : Works} (e : Env) (tag serial : Nat) (h : Moves w0 w) :
    Moves w0 (w.startAnswers e tag serial) := by
  unfold Works.startAnswers
  try dsimp only
  repeat' split
  all_goals apply_rules [Works.modGather_moves]

/-- Entries of a home that did not answer. -/
theorem Works.noAnswer_moves {w0 w : Works} (e : Env) (tag : Nat) (zones : List Nat) (h : Moves w0 w) :
    Moves w0 (Works.noAnswer e tag zones w) := by
  induction zones generalizing w with
  | nil => exact h
  | cons zone rest ih =>
    unfold Works.noAnswer
    split
    · exact ih h
    · dsimp only
      split
      · exact ih (Works.roundFails_moves e _ _ (Works.modGrants_moves _ _ h))
      · exact ih (Works.testRound_moves e _ (Works.missed_moves _ (Works.modGrants_moves _ _ h)))

/-- An answer timer runs out. -/
theorem Works.answerExpires_moves {w0 w : Works} (e : Env) (tag home : Nat) (h : Moves w0 w) :
    Moves w0 (w.answerExpires e tag home) := by
  unfold Works.answerExpires
  try dsimp only
  repeat' split
  all_goals apply_rules [Works.noAnswer_moves, Works.modGather_moves]

/-- The gather timer runs out. -/
theorem Works.gatherExpires_moves {w0 w : Works} (e : Env) (tag : Nat) (h : Moves w0 w) :
    Moves w0 (w.gatherExpires e tag) := by
  unfold Works.gatherExpires
  try dsimp only
  repeat' split
  all_goals apply_rules [Works.roundFails_moves]

/-- The ready timer runs out. -/
theorem Works.readyExpires_moves {w0 w : Works} (e : Env) (tag : Nat) (h : Moves w0 w) :
    Moves w0 (w.readyExpires e tag) := by
  unfold Works.readyExpires
  try dsimp only
  repeat' split
  all_goals apply_rules [Works.roundFails_moves, Works.post_moves, Works.modGather_moves]

/-- The start timer runs out. -/
theorem Works.startExpires_moves {w0 w : Works} (e : Env) (tag : Nat) (h : Moves w0 w) :
    Moves w0 (w.startExpires e tag) := by
  unfold Works.startExpires
  try dsimp only
  repeat' split
  all_goals apply_rules [Works.roundFails_moves]

/-- The backoff timer runs out. -/
theorem Works.backoffExpires_moves {w0 w : Works} (e : Env) (tag : Nat) (h : Moves w0 w) :
    Moves w0 (w.backoffExpires e tag) := by
  unfold Works.backoffExpires
  try dsimp only
  repeat' split
  all_goals apply_rules [Works.chooseTrunk_moves, Works.startRound_moves, Works.modGather_moves]

/-- The start of the airing is reported. -/
theorem Works.airingStarted_moves {w0 w : Works} (e : Env) (tag : Nat) (h : Moves w0 w) :
    Moves w0 (w.airingStarted e tag) := by
  unfold Works.airingStarted
  split
  · exact h
  · rename_i r _
    have h1 := Works.modJob_moves tag (fun x : JobRec => { x with zonesAired := (r.gathering.grants.filter Grant.isGranted).length })
      (fun _ => rfl) (Works.modGather_moves tag (fun g => { g with
        phase := .airing, startTimer := none, answers := [],
        grants := g.grants.map (fun x => if x.givenUpAtStart then { x with verdict := .dropped } else x) }) h)
    dsimp only
    split
    · exact h1
    · exact Works.giveBack_moves e _ _ (Works.missed_moves _ h1)

/-- A gathering begins. -/
theorem Works.beginGathering_moves {w0 w : Works} (e : Env) (tag : Nat) (h : Moves w0 w) :
    Moves w0 (w.beginGathering e tag) := by
  unfold Works.beginGathering
  try dsimp only
  repeat' split
  all_goals apply_rules [Works.post_moves, Works.startRound_moves, Works.missed_moves, Works.modGather_moves, Works.chooseTrunk_moves]

/-- A revocation reaches the unit. -/
theorem Works.takeRevocation_moves {w0 w : Works} (e : Env) (tag zone : Nat) (reason : Reason) (h : Moves w0 w) :
    Moves w0 (w.takeRevocation e tag zone reason) := by
  unfold Works.takeRevocation
  try dsimp only
  repeat' split
  all_goals apply_rules [Works.losesZone_moves, Works.missed_moves, Works.modGrants_moves]

/-- Entry to ISOLATED for a job that has asked. -/
theorem Works.isolateAsking_moves {w0 w : Works} (e : Env) (r : JobRec) (h : Moves w0 w) :
    Moves w0 (w.isolateAsking e r) := by
  unfold Works.isolateAsking
  try dsimp only
  repeat' split
  all_goals apply_rules [Works.losesZone_moves, Works.missed_moves, Works.modGather_moves]

/-- Entry to ISOLATED for a job that waits. -/
theorem Works.isolateWaiting_moves {w0 w : Works} (e : Env) (r : JobRec) (h : Moves w0 w) :
    Moves w0 (w.isolateWaiting e r) := by
  unfold Works.isolateWaiting
  try dsimp only
  repeat' split
  all_goals apply_rules [Works.post_moves, Works.missed_moves, Works.modGather_moves]

/-- Entry to ISOLATED for a job. -/
theorem Works.isolateJob_moves {w0 w : Works} (e : Env) (tag : Nat) (h : Moves w0 w) :
    Moves w0 (w.isolateJob e tag) := by
  unfold Works.isolateJob
  try dsimp only
  repeat' split
  all_goals apply_rules [Works.isolateAsking_moves, Works.isolateWaiting_moves, Works.dropTrunk_moves]

end Sys2Proof.Machine
end

