-- ==== Sys2Proof/Laws/MovesJobs.lean ====
section
/-! SUPPORT. What the Job Table's operations do to the works: moves, but for a new record; and with a new record, what
settling does (`Settles`). -/

namespace Sys2Proof.Machine

open Sys2Proof

/-- The last-aired records. -/
theorem Works.keepLastAired_moves {w0 w : Works} (e : Env) (r : JobRec) (h : Moves w0 w) : Moves w0 (w.keepLastAired e r) := by
  unfold Works.keepLastAired
  split
  · dsimp only
    split
    · exact h.sameRecs _ rfl
    · exact h
  · exact h

/-- A report is taken. -/
theorem Works.takeReport_moves {w0 w : Works} (e : Env) (b : ReportBody) (h : Moves w0 w) : Moves w0 (w.takeReport e b) := by
  unfold Works.takeReport
  dsimp only
  repeat' split
  all_goals apply_rules [Works.hand_moves, Moves.bump]

/-- A record is freed. -/
theorem Works.freeRecord_moves {w0 w : Works} (tag : Nat) (h : Moves w0 w) : Moves w0 (w.freeRecord tag) :=
  h.jobs _ (List.Sublist.map _ List.filter_sublist)

/-- A tag is issued. -/
theorem Works.issueTag_moves {w0 w : Works} (h : Moves w0 w) : Moves w0 w.issueTag := h.sameRecs _ rfl

/-- A job ends. -/
theorem Works.endJob_moves {w0 w : Works} (e : Env) (tag : Nat) (code : Code) (h : Moves w0 w) :
    Moves w0 (w.endJob e tag code) := by
  unfold Works.endJob
  try dsimp only
  repeat' split
  all_goals apply_rules [Works.post_moves, Works.freeRecord_moves, Works.takeReport_moves, Works.keepLastAired_moves, Works.dropReads_moves, Works.letGo_moves, Works.releaseGathering_moves, Works.modJob_moves]

/-- A request is refused. -/
theorem Works.refuse_moves {w0 w : Works} (e : Env) (tag : Nat) (o : Origin) (callRef : Option CallRef) (content : ReportContent) (code : Code) (h : Moves w0 w) :
    Moves w0 (w.refuse e tag o callRef content code) := by
  unfold Works.refuse
  all_goals apply_rules [Works.takeReport_moves]

/-- Records are superseded. -/
theorem Works.supersede_moves {w0 w : Works} (e : Env) (q : JobRequest) (h : Moves w0 w) : Moves w0 (w.supersede e q) :=
  Moves.foldl _ (fun _ _ => Works.endJob_moves e _ _ .refl) _ h

/-- Space is made. -/
theorem Works.makeSpace_moves {w0 w : Works} (e : Env) (q : JobRequest) (h : Moves w0 w) : Moves w0 (w.makeSpace e q).1 := by
  unfold Works.makeSpace
  split
  · exact h
  · split
    · split
      · exact Works.endJob_moves e _ _ h
      · exact h
    · exact h

/-- The end of binding. -/
theorem Works.endBinding_moves {w0 w : Works} (e : Env) (tag : Nat) (h : Moves w0 w) :
    Moves w0 (w.endBinding e tag) := by
  unfold Works.endBinding
  try dsimp only
  repeat' split
  all_goals apply_rules [Works.endJob_moves, Works.beginGathering_moves, Works.fillFrom_moves, Works.modJob_moves]

/-- Binding goes on. -/
theorem Works.continueBinding_moves {w0 w : Works} (e : Env) (tag : Nat) (h : Moves w0 w) :
    Moves w0 (w.continueBinding e tag) := by
  unfold Works.continueBinding
  try dsimp only
  repeat' split
  all_goals apply_rules [Works.askRead_moves, Works.endBinding_moves, Works.modJob_moves]

/-- Items are expanded. -/
theorem Works.expandJob_moves {w0 w : Works} (e : Env) (tag : Nat) (items : List Item) (h : Moves w0 w) :
    Moves w0 (w.expandJob e tag items) := by
  unfold Works.expandJob
  try dsimp only
  repeat' split
  all_goals apply_rules [Works.continueBinding_moves, Works.modJob_moves]

/-- A record enters BINDING. -/
theorem Works.enterBinding_moves {w0 w : Works} (e : Env) (tag : Nat) (h : Moves w0 w) :
    Moves w0 (w.enterBinding e tag) := by
  unfold Works.enterBinding
  try dsimp only
  repeat' split
  all_goals apply_rules [Works.endJob_moves, Works.askRead_moves, Works.expandJob_moves, Works.reserve_moves, Works.modJob_moves]

/-- A binding read meets a port fault. -/
theorem Works.bindingPortFault_moves {w0 w : Works} (e : Env) (tag : Nat) (h : Moves w0 w) :
    Moves w0 (w.bindingPortFault e tag) := by
  unfold Works.bindingPortFault
  all_goals apply_rules [Works.endBinding_moves, Works.modJob_moves]

/-- One dispatch. -/
theorem Works.dispatchOne_moves {w0 w : Works} (e : Env) (h : Moves w0 w) :
    Moves w0 (w.dispatchOne e) := by
  unfold Works.dispatchOne
  try dsimp only
  repeat' split
  all_goals apply_rules [Works.enterBinding_moves, Works.beginGathering_moves, Works.fillFrom_moves, Works.modJob_moves]

/-- The look for a dispatch. -/
theorem Works.dispatch_moves {w0 w : Works} (e : Env) (h : Moves w0 w) :
    Moves w0 (w.dispatch e) := by
  unfold Works.dispatch
  all_goals apply_rules [Works.dispatchOne_moves]

/-- The start order. -/
theorem Works.tryStart_moves {w0 w : Works} (e : Env) (tag : Nat) (h : Moves w0 w) :
    Moves w0 (w.tryStart e tag) := by
  unfold Works.tryStart
  try dsimp only
  repeat' split
  all_goals apply_rules [Works.airingStarted_moves, Works.startPlaying_moves, Works.modJob_moves]

/-- A preemption. -/
theorem Works.preempt_moves {w0 w : Works} (e : Env) (tag : Nat) (h : Moves w0 w) :
    Moves w0 (w.preempt e tag) := by
  unfold Works.preempt
  try dsimp only
  repeat' split
  all_goals apply_rules [Works.endJob_moves, Works.post_moves, Works.dropReads_moves, Works.letGo_moves, Works.releaseGathering_moves, Works.modJob_moves]

/-- A report of the unit. -/
theorem Works.unitReports_moves {w0 w : Works} (e : Env) (tag : Nat) (u : UnitReport) (h : Moves w0 w) :
    Moves w0 (w.unitReports e tag u) := by
  unfold Works.unitReports
  try dsimp only
  repeat' split
  all_goals apply_rules [Works.endJob_moves, Works.tryStart_moves, Works.preempt_moves, Works.modJob_moves]

/-- An airing ends. -/
theorem Works.airingEnds_moves {w0 w : Works} (e : Env) (tag : Nat) (h : Moves w0 w) :
    Moves w0 (w.airingEnds e tag) := by
  unfold Works.airingEnds
  try dsimp only
  repeat' split
  all_goals apply_rules [Works.endJob_moves, Works.releaseGathering_moves, Works.modJob_moves]

/-- A report of a channel. -/
theorem Works.channelReports_moves {w0 w : Works} (e : Env) (n : Nat) (u : ChannelReport) (h : Moves w0 w) :
    Moves w0 (w.channelReports e n u) := by
  unfold Works.channelReports
  try dsimp only
  repeat' split
  all_goals apply_rules [Works.tryStart_moves, Works.airingEnds_moves, Works.endJob_moves, Works.flag_moves, Works.modJob_moves]

/-- The gap timer. -/
theorem Works.gapExpires_moves {w0 w : Works} (e : Env) (tag : Nat) (h : Moves w0 w) :
    Moves w0 (w.gapExpires e tag) := by
  unfold Works.gapExpires
  try dsimp only
  repeat' split
  all_goals apply_rules [Works.enterBinding_moves, Works.beginGathering_moves, Works.fillFrom_moves, Works.modJob_moves]

/-- The retry timer. -/
theorem Works.retryExpires_moves {w0 w : Works} (e : Env) (tag : Nat) (h : Moves w0 w) :
    Moves w0 (w.retryExpires e tag) := by
  unfold Works.retryExpires
  try dsimp only
  repeat' split
  all_goals apply_rules [Works.dispatch_moves, Works.modJob_moves]

/-- A record is made stale. -/
theorem Works.makeStale_moves {w0 w : Works} (e : Env) (tag : Nat) (h : Moves w0 w) :
    Moves w0 (w.makeStale e tag) := by
  unfold Works.makeStale
  try dsimp only
  repeat' split
  all_goals apply_rules [Works.endJob_moves, Works.stopAtBoundary_moves, Works.modJob_moves]

/-- The last-airing mark. -/
theorem Works.markLast_moves {w0 w : Works} (e : Env) (tag : Nat) (h : Moves w0 w) :
    Moves w0 (w.markLast e tag) := by
  unfold Works.markLast
  try dsimp only
  repeat' split
  all_goals apply_rules [Works.endJob_moves, Works.modJob_moves]

/-- A RETIRED notice. -/
theorem Works.retireJob_moves {w0 w : Works} (e : Env) (r : JobRec) (h : Moves w0 w) :
    Moves w0 (w.retireJob e r) := by
  unfold Works.retireJob
  try dsimp only
  repeat' split
  all_goals apply_rules [Works.makeStale_moves, Works.markLast_moves]

/-- A notice to one record. -/
theorem Works.noticeJob_moves {w0 w : Works} (e : Env) (kind : NoticeKind) (r : JobRec) (h : Moves w0 w) :
    Moves w0 (w.noticeJob e kind r) := by
  unfold Works.noticeJob
  try dsimp only
  repeat' split
  all_goals apply_rules [Works.makeStale_moves, Works.retireJob_moves]

/-- A notice. -/
theorem Works.takeNotice_moves {w0 w : Works} (e : Env) (kind : NoticeKind) (slot id : Nat) (h : Moves w0 w) :
    Moves w0 (w.takeNotice e kind slot id) := Moves.foldl _ (fun _ _ => Works.noticeJob_moves e _ _ .refl) _ h

/-- QUIET at one record. -/
theorem Works.quietJob_moves {w0 w : Works} (e : Env) (r : JobRec) (h : Moves w0 w) :
    Moves w0 (w.quietJob e r) := by
  unfold Works.quietJob
  try dsimp only
  repeat' split
  all_goals apply_rules [Works.endJob_moves, Works.modJob_moves]

/-- QUIET at the Job Table. -/
theorem Works.quietJobs_moves {w0 w : Works} (e : Env) (h : Moves w0 w) : Moves w0 (w.quietJobs e) :=
  Moves.foldl _ (fun _ _ => Works.quietJob_moves e _ .refl) _ h

/-- A falling edge. -/
theorem Works.triggerFalls_moves {w0 w : Works} (e : Env) (input : Nat) (h : Moves w0 w) :
    Moves w0 (w.triggerFalls e input) := by
  unfold Works.triggerFalls
  try dsimp only
  repeat' split
  all_goals apply_rules [Works.endJob_moves, Works.modJob_moves]

/-- The days of not-before times are fixed. -/
theorem Works.fixDays_moves {w0 w : Works} (e : Env) (h : Moves w0 w) : Moves w0 (w.fixDays e) := by
  refine h.jobs _ ?_
  unfold JobTable.Shrinks
  dsimp only [Works.fixDays]
  rw [List.map_map]
  exact List.Sublist.refl _

/-! ### A new record -/

/-- A record with its tag is on the table at most once, and leaves when its job ends. -/
theorem Works.endJob_shorter (e : Env) (tag : Nat) (code : Code) (w : Works) (h : tag ∈ w.jobs.recs.map (·.tag)) :
    (w.endJob e tag code).jobs.recs.length < w.jobs.recs.length := by
  have key : ∀ w2 : Works, Moves w w2 → (w2.freeRecord tag).jobs.recs.length < w.jobs.recs.length := by
    intro w2 hm
    have hs : ((w2.freeRecord tag).jobs.recs.map (·.tag)).Sublist (w.jobs.recs.map (·.tag)) :=
      (Works.freeRecord_moves tag hm).shrinks
    have hn : tag ∉ (w2.freeRecord tag).jobs.recs.map (·.tag) := by simp [Works.freeRecord]
    have hl := hs.length_le
    simp only [List.length_map] at hl
    rcases Nat.lt_or_eq_of_le hl with h1 | h1
    · exact h1
    · exact absurd ((hs.eq_of_length (by simpa using h1)) ▸ h) hn
  unfold Works.endJob
  split
  · rename_i hj
    exfalso
    obtain ⟨r, hr, ht⟩ := List.mem_map.mp h
    have := List.find?_eq_none.mp hj r hr
    simp [ht] at this
  · dsimp only
    have hm : ∀ (r : JobRec) (b : ReportBody) (w3 : Works), Moves w w3 →
        (((w3.keepLastAired e r).takeReport e b).freeRecord tag).jobs.recs.length < w.jobs.recs.length := by
      intro r b w3 h3
      exact key _ (Works.takeReport_moves e b (Works.keepLastAired_moves e r h3))
    repeat' split
    all_goals
      first
        | exact hm _ _ _ (by apply_rules [Works.dropReads_moves, Works.letGo_moves, Works.releaseGathering_moves, Works.modJob_moves, Moves.refl])

/-- Space made leaves fewer than 16 records. -/
theorem Works.makeSpace_length (e : Env) (q : JobRequest) (w : Works) (hw : w.jobs.recs.length ≤ jobCapacity)
    (h : (w.makeSpace e q).2 = true) : (w.makeSpace e q).1.jobs.recs.length < jobCapacity := by
  unfold Works.makeSpace at h ⊢
  split at h
  · rename_i hl
    rw [if_pos hl]
    exact hl
  · rename_i hl
    rw [if_neg hl]
    split at h
    · rename_i r hr
      split at h
      · rename_i hb
        rw [if_pos hb]
        have hmem : r ∈ w.jobs.recs := by
          have h1 := bestBy_mem _ _ _ hr
          exact (List.mem_filter.mp h1).1
        have := Works.endJob_shorter e r.tag .displaced w (List.mem_map_of_mem hmem)
        show (w.endJob e r.tag .displaced).jobs.recs.length < jobCapacity
        omega
      · simp at h
    · simp at h

/-- The tag looked for is held by no record when fewer tags are held than are looked at. -/
theorem freeTag_free (recs : List JobRec) (n t : Nat) (ht : t ≤ 255)
    (hn : ∃ k < n, ∀ r ∈ recs, r.tag ≠ (t + k) % 256) :
    freeTag recs n t ≤ 255 ∧ ∀ r ∈ recs, r.tag ≠ freeTag recs n t := by
  induction n generalizing t with
  | zero => obtain ⟨k, hk, -⟩ := hn; omega
  | succ n ih =>
    unfold freeTag
    split
    · rename_i ha
      obtain ⟨k, hk, hf⟩ := hn
      refine ih ((t + 1) % 256) (by omega) ?_
      cases k with
      | zero =>
        exfalso
        obtain ⟨r, hr, hrt⟩ := List.any_eq_true.mp ha
        have := hf r hr
        simp only [decide_eq_true_eq] at hrt
        omega
      | succ k => exact ⟨k, by omega, fun r hr => by have := hf r hr; omega⟩
    · rename_i ha
      refine ⟨ht, fun r hr he => ha ?_⟩
      exact List.any_eq_true.mpr ⟨r, hr, by simp [he]⟩

/-- The next tag is 0..255 and held by no record (R48). -/
theorem JobTable.nextTag_free (j : JobTable) (h : j.recs.length ≤ jobCapacity) :
    j.nextTag ≤ 255 ∧ ∀ r ∈ j.recs, r.tag ≠ j.nextTag := by
  refine freeTag_free j.recs 256 _ (by omega) ?_
  by_contra hc
  push Not at hc
  have hsub : (Finset.range 17).image (fun k => ((j.lastTag + 1) % 256 + k) % 256) ⊆ (j.recs.map (·.tag)).toFinset := by
    intro x hx
    obtain ⟨k, hk, rfl⟩ := Finset.mem_image.mp hx
    obtain ⟨r, hr, hrt⟩ := hc k (by have := Finset.mem_range.mp hk; omega)
    exact List.mem_toFinset.mpr (List.mem_map.mpr ⟨r, hr, hrt⟩)
  have hcard : ((Finset.range 17).image (fun k => ((j.lastTag + 1) % 256 + k) % 256)).card = 17 := by
    rw [Finset.card_image_of_injOn, Finset.card_range]
    intro a ha b hb hab
    have ha' := Finset.mem_range.mp (Finset.mem_coe.mp ha)
    have hb' := Finset.mem_range.mp (Finset.mem_coe.mp hb)
    dsimp only at hab
    omega
  have h1 := Finset.card_le_card hsub
  have h2 := List.toFinset_card_le (j.recs.map (·.tag))
  rw [hcard] at h1
  simp only [List.length_map] at h2
  unfold jobCapacity at h
  omega

/-- A Job Table that shrinks keeps its bounds. -/
theorem JobTable.Shrinks.wf {a b : JobTable} (h : a.Shrinks b) (ha : a.wf) : b.wf := by
  obtain ⟨h1, h2, h3⟩ := ha
  have hl := h.length_le
  simp only [List.length_map] at hl
  refine ⟨by omega, ?_, h3.sublist h⟩
  intro r hr
  obtain ⟨x, hx, he⟩ := List.mem_map.mp (h.subset (List.mem_map_of_mem hr))
  rw [← he]; exact h2 x hx

/-- What settling can do to the works: moves, and new records within the bounds of the Job Table. -/
inductive Settles (w0 : Works) : Works → Prop
  | refl : Settles w0 w0
  | moves {w w' : Works} : Settles w0 w → Moves w w' → Settles w0 w'
  | create {w w' : Works} (j : JobTable) : Settles w0 w → Moves w w' → (w.jobs.wf → j.wf) → Settles w0 { w' with jobs := j }

/-- Settlings follow one another. -/
theorem Settles.trans {a b c : Works} (h : Settles a b) (k : Settles b c) : Settles a c := by
  induction k with
  | refl => exact h
  | moves _ m ih => exact ih.moves m
  | create j _ m hj ih => exact ih.create j m hj

/-- A request goes through acceptance. -/
theorem Works.accept_settles {w0 w : Works} (e : Env) (q : JobRequest) (h : Settles w0 w) : Settles w0 (w.accept e q) := by
  unfold Works.accept
  dsimp only
  split
  · exact h.moves (Works.refuse_moves e _ _ _ _ _ (Works.issueTag_moves .refl))
  · have hm : Moves w ((w.issueTag.supersede e q).makeSpace e q).1 :=
      Works.makeSpace_moves e q (Works.supersede_moves e q (Works.issueTag_moves .refl))
    split
    · rename_i hs
      refine h.create _ hm (fun hw => ?_)
      have hsub := hm.shrinks
      obtain ⟨h1, h2, h3⟩ := hsub.wf hw
      obtain ⟨t1, t2⟩ := w.jobs.nextTag_free hw.1
      have hsup : (w.issueTag.supersede e q).jobs.recs.length ≤ jobCapacity :=
        ((Works.supersede_moves e q (Works.issueTag_moves (w0 := w) .refl)).shrinks.wf hw).1
      have hlen := Works.makeSpace_length e q _ hsup hs
      refine ⟨?_, ?_, ?_⟩
      · simp only [List.length_append, List.length_cons, List.length_nil]
        omega
      · intro r hr
        rcases List.mem_append.mp hr with hr | hr
        · exact h2 r hr
        · rw [List.mem_singleton.mp hr]; exact t1
      · rw [List.map_append, List.nodup_append]
        refine ⟨h3, by simp, ?_⟩
        intro a ha b hb
        simp only [List.map_cons, List.map_nil, List.mem_singleton] at hb
        subst hb
        obtain ⟨r, hr, rfl⟩ := List.mem_map.mp (hsub.subset ha)
        exact t2 r hr
    · exact h.moves (Works.refuse_moves e _ _ _ _ _ hm)

/-- A request reaches the Job Table. -/
theorem Works.takeRequest_settles {w0 w : Works} (e : Env) (q : JobRequest) (h : Settles w0 w) :
    Settles w0 (w.takeRequest e q) := (Works.accept_settles e q h).moves (Works.dispatch_moves e .refl)

/-- An ANNOUNCE frame. -/
theorem Works.announce_settles {w0 w : Works} (e : Env) (f : Frame) (a : AnnounceBody) (h : Settles w0 w) :
    Settles w0 (w.announce e f a) := by
  unfold Works.announce
  dsimp only
  split
  · exact h.moves (Works.refuse_moves e _ _ _ _ _ (Works.issueTag_moves .refl))
  · exact Works.takeRequest_settles e _ h

/-- A REPLAY-LAST request. -/
theorem Works.replayLast_settles {w0 w : Works} (e : Env) (face : Nat) (h : Settles w0 w) :
    Settles w0 (w.replayLast e face) := by
  unfold Works.replayLast
  split
  · exact h.moves (Works.refuse_moves e _ _ _ _ _ (Works.issueTag_moves .refl))
  · exact Works.takeRequest_settles e _ h

/-- A rising edge of a trigger input. -/
theorem Works.triggerRises_settles {w0 w : Works} (e : Env) (input : Nat) (h : Settles w0 w) :
    Settles w0 (w.triggerRises e input) := by
  unfold Works.triggerRises
  split
  · exact h.moves (Works.modJob_moves _ _ (fun _ => rfl) .refl)
  · split
    · exact Works.takeRequest_settles e _ h
    · exact h

/-- One piece of work. -/
theorem handle_settles {w0 w : Works} (e : Env) (n : Note) (h : Settles w0 w) : Settles w0 (handle e n w) := by
  unfold handle
  split
  · exact h.moves (Works.takeNotice_moves e _ _ _ .refl)
  · exact Works.takeRequest_settles e _ h
  · exact h.moves (Works.dispatch_moves e .refl)
  · exact h.moves (Works.unitReports_moves e _ _ .refl)
  · exact h.moves (Works.channelReports_moves e _ _ .refl)
  · exact h.moves (Works.verdictReaches_moves e _ _ _ _ .refl)
  · exact h.moves (Works.takeRevocation_moves e _ _ _ .refl)
  · exact h.moves (Works.seizeUnsent_moves e _ _ .refl)
  · exact h.moves (Works.startAnswers_moves e _ _ .refl)
  · exact h.moves (Works.readyExpires_moves e _ .refl)
  · exact h.moves (Works.startRound_moves e _ .refl)
  · exact h.moves (Works.testStart_moves e _ .refl)
  · exact h.moves (Works.lookAtFlash_moves e .refl)

/-- Everything settling can do to the works. -/
theorem settle_settles (e : Env) (fuel : Nat) (w : Works) : Settles w (settle e fuel w) :=
  settle_keeps e (Settles w) (fun _ a h => h.moves (Moves.refl.agenda a)) (fun n _ h => handle_settles e n h) fuel w .refl

/-! ### What settling keeps -/

/-- Settling leaves the trunk view, the fault set and its sequence number, the directory cache, the receive side of the
line, and the sizes of the tables. -/
theorem Settles.kept {w0 w : Works} (h : Settles w0 w) :
    w.trunks = w0.trunks ∧ w.report.faults = w0.report.faults ∧ w.report.seq = w0.report.seq
      ∧ w.flash.cache = w0.flash.cache ∧ w.line.rx = w0.line.rx ∧ w.line.echo = w0.line.echo
      ∧ w.line.spoilRun = w0.line.spoilRun ∧ w.line.ownSpoils = w0.line.ownSpoils ∧ w.line.spoilSlot = w0.line.spoilSlot
      ∧ w.channels.length = w0.channels.length ∧ w.flash.streams.length = w0.flash.streams.length := by
  induction h with
  | refl => simp
  | moves _ m ih => have := m.kept; simp_all
  | create j _ m _ ih => have := m.kept; simp_all

/-- Settling keeps the bounds of the Job Table. -/
theorem Settles.jobsWf {w0 w : Works} (h : Settles w0 w) : w0.jobs.wf → w.jobs.wf := by
  induction h with
  | refl => exact id
  | moves _ m ih => exact fun x => m.shrinks.wf (ih x)
  | create j _ _ hj ih => exact fun x => hj (ih x)

/-- Settling keeps the bounds of the zones. -/
theorem Settles.zonesWf {w0 w : Works} (h : Settles w0 w) : w0.zones.wf → w.zones.wf := by
  induction h with
  | refl => exact id
  | moves _ m ih => exact fun x => m.zoneSteps.1 (ih x)
  | create j _ m _ ih => exact fun x => m.zoneSteps.1 (ih x)

/-- Settling keeps the bounds of the levels. -/
theorem Settles.levelsWf {w0 w : Works} (h : Settles w0 w) : (∀ l ∈ w0.levels, l.wf) → ∀ l ∈ w.levels, l.wf := by
  induction h with
  | refl => exact id
  | moves _ m ih => exact fun x => m.levelSteps.1 (ih x)
  | create j _ m _ ih => exact fun x => m.levelSteps.1 (ih x)

/-- Settling keeps the bounds of the transmit queue. -/
theorem Settles.queueWf {w0 w : Works} (h : Settles w0 w) : w0.line.queueWf → w.line.queueWf := by
  induction h with
  | refl => exact id
  | moves _ m ih => exact fun x => m.queueWf (ih x)
  | create j _ m _ ih => exact fun x => m.queueWf (ih x)

/-- Settling keeps the bounds of the Report Unit. -/
theorem Settles.reportWf {w0 w : Works} (h : Settles w0 w) : w0.report.wf → w.report.wf := by
  induction h with
  | refl => exact id
  | moves _ m ih => exact fun x => m.reportWf (ih x)
  | create j _ m _ ih => exact fun x => m.reportWf (ih x)

end Sys2Proof.Machine
end

