-- ==== Sys2Proof/WellFormed.lean ====
section
/-! DEFINITION. Which commands the part's pins, ports and tables can produce: the ranges of the operands.  `exec` is
total on ill-formed commands too (an index past the end names nothing, a missing byte reads as 0); no test of a
program and no statement needs them. -/

namespace Sys2Proof

/-- A station line frame as received: at most 4 header bytes, 63 payload bytes (whatever the length field says, R187)
and 2 check bytes. -/
def maxFrameBytes : Nat := 69

/-- A command with every operand in the range the spec gives it. -/
def Instr.wellFormed : Instr → Bool
  | .resetRelease node _ => decide (node ≤ 63)
  | .configImageTaken (some image) => decide (image.length ≤ 4096)
  | .frameReceived bytes _ => decide (bytes.length ≤ maxFrameBytes)
  | .frameStart rivals => rivals.all fun r => decide (1 ≤ r % 64 ∧ r < 256)
  | .retentionTimerExpiry slot => decide (slot < 32)
  | .dwellTimerExpiry slot => decide (slot < 32)
  | .presenceInputChange position _ => decide (position < 4)
  | .debounceTimerExpiry position => decide (position < 4)
  | .triggerRisingEdge input => decide (input < 2)
  | .triggerFallingEdge input => decide (input < 2)
  | .retryTimerExpiry tag => decide (tag ≤ 255)
  | .gapTimerExpiry tag => decide (tag ≤ 255)
  | .templateReadComplete data => decide (data.length = 128)
  | .directoryReadComplete data => decide (data.length = 512)
  | .audioReadComplete data => decide (data.length = 512)
  | .samplePeriod carrier => decide (carrier.length = 4)
  | .gapSilenceEnd channel => decide (channel < 2)
  | .underrun channel => decide (channel < 2)
  | .stall channel => decide (channel < 2)
  | .settleTimerExpiry zone => decide (1 ≤ zone ∧ zone ≤ 254)
  | .holdTimerExpiry zone => decide (1 ≤ zone ∧ zone ≤ 254)
  | .expiryTimerExpiry zone => decide (1 ≤ zone ∧ zone ≤ 254)
  | .waitTimerExpiry zone node tag => decide (1 ≤ zone ∧ zone ≤ 254 ∧ 1 ≤ node ∧ node ≤ 63 ∧ tag ≤ 255)
  | .lineFaultInputChange output _ => decide (output < 8)
  | .trunkViewExpiry trunk => decide (trunk < 4)
  | .trunkWaitTimerExpiry tag => decide (tag ≤ 255)
  | .answerTimerExpiry tag home => decide (tag ≤ 255 ∧ 1 ≤ home ∧ home ≤ 63)
  | .gatherTimerExpiry tag => decide (tag ≤ 255)
  | .readyTimerExpiry tag => decide (tag ≤ 255)
  | .startTimerExpiry tag => decide (tag ≤ 255)
  | .backoffTimerExpiry tag => decide (tag ≤ 255)
  | .ambientReadingCycle readings =>
      decide (readings.length = 8) && readings.all fun r => match r with | some v => decide (v ≤ 255) | none => true
  | .silenceTimerExpiry zone => decide (1 ≤ zone ∧ zone ≤ 254)
  | .releaseTimerExpiry zone => decide (1 ≤ zone ∧ zone ≤ 254)
  | .configImageTaken none => true
  | .startReset => true
  | .srvPulse => true
  | .listenTimerExpiry => true
  | .isolationTimerExpiry => true
  | .ownFrameSpoiled _ => true
  | .ownFrameSent _ => true
  | .echo => true
  | .seizeEcho => true
  | .zoneAskEcho => true
  | .isolationProfileEcho => true
  | .profileEcho => true
  | .time => true
  | .call => true
  | .announce => true
  | .quiet => true
  | .wake => true
  | .serviceReset => true
  | .replayLast => true
  | .statusQuery => true
  | .profile => true
  | .seize => true
  | .free => true
  | .zoneAsk => true
  | .zoneLeave => true
  | .zoneAnswer => true
  | .zoneRevoke => true
  | .tick => true
  | .flashReadNoResponse => true

end Sys2Proof
end

