-- ==== Sys2Proof/Laws/PerInstr.lean ====
section
/-! SUPPORT. The ranges of a command's operands, command by command: a command is well formed exactly when its operands
are in the ranges the spec gives them. -/

namespace Sys2Proof.Laws.OperandRanges

open Sys2Proof

/-- The ranges the spec gives the operands of a command; a command without operands, or whose operands are levels, has
none to keep. -/
def Ranges : Instr → Prop
  | .resetRelease node _ => node ≤ 63
  | .configImageTaken image => ∀ b ∈ image, b.length ≤ 4096
  | .frameReceived bytes _ => bytes.length ≤ 69
  | .retentionTimerExpiry slot => slot ≤ 31
  | .dwellTimerExpiry slot => slot ≤ 31
  | .presenceInputChange position _ => position ≤ 3
  | .debounceTimerExpiry position => position ≤ 3
  | .triggerRisingEdge input => input ≤ 1
  | .triggerFallingEdge input => input ≤ 1
  | .retryTimerExpiry tag => tag ≤ 255
  | .gapTimerExpiry tag => tag ≤ 255
  | .templateReadComplete data => data.length = 128
  | .directoryReadComplete data => data.length = 512
  | .audioReadComplete data => data.length = 512
  | .samplePeriod carrier => carrier.length = 4
  | .gapSilenceEnd channel => channel ≤ 1
  | .underrun channel => channel ≤ 1
  | .stall channel => channel ≤ 1
  | .settleTimerExpiry zone => 1 ≤ zone ∧ zone ≤ 254
  | .holdTimerExpiry zone => 1 ≤ zone ∧ zone ≤ 254
  | .expiryTimerExpiry zone => 1 ≤ zone ∧ zone ≤ 254
  | .waitTimerExpiry zone node tag => (1 ≤ zone ∧ zone ≤ 254) ∧ (1 ≤ node ∧ node ≤ 63) ∧ tag ≤ 255
  | .lineFaultInputChange output _ => output ≤ 7
  | .trunkViewExpiry trunk => trunk ≤ 3
  | .trunkWaitTimerExpiry tag => tag ≤ 255
  | .answerTimerExpiry tag home => tag ≤ 255 ∧ 1 ≤ home ∧ home ≤ 63
  | .gatherTimerExpiry tag => tag ≤ 255
  | .readyTimerExpiry tag => tag ≤ 255
  | .startTimerExpiry tag => tag ≤ 255
  | .backoffTimerExpiry tag => tag ≤ 255
  | .frameStart rivals => ∀ r ∈ rivals, 1 ≤ r % 64 ∧ r < 256
  | .ambientReadingCycle readings => readings.length = 8 ∧ ∀ r ∈ readings, ∀ v ∈ r, v ≤ 255
  | .silenceTimerExpiry zone => 1 ≤ zone ∧ zone ≤ 254
  | .releaseTimerExpiry zone => 1 ≤ zone ∧ zone ≤ 254
  | .startReset => True
  | .srvPulse => True
  | .listenTimerExpiry => True
  | .isolationTimerExpiry => True
  | .ownFrameSpoiled _ => True
  | .ownFrameSent _ => True
  | .echo => True
  | .seizeEcho => True
  | .zoneAskEcho => True
  | .isolationProfileEcho => True
  | .profileEcho => True
  | .time => True
  | .call => True
  | .announce => True
  | .quiet => True
  | .wake => True
  | .serviceReset => True
  | .replayLast => True
  | .statusQuery => True
  | .profile => True
  | .seize => True
  | .free => True
  | .zoneAsk => True
  | .zoneLeave => True
  | .zoneAnswer => True
  | .zoneRevoke => True
  | .tick => True
  | .flashReadNoResponse => True

/-- A command is well formed exactly when its operands are in range. -/
def Statement (i : Instr) : Prop := i.wellFormed = true ↔ Ranges i

theorem startReset : Statement .startReset := by
  exact ⟨fun _ => trivial, fun _ => rfl⟩

theorem resetRelease (node : Nat) (dset : Bool) : Statement (.resetRelease node dset) := by
  exact decide_eq_true_iff

theorem configImageTaken (image : Option (List Byte)) : Statement (.configImageTaken image) := by
  cases image with
  | none => exact ⟨fun _ b h => (Option.not_mem_none b h).elim, fun _ => rfl⟩
  | some d => exact decide_eq_true_iff.trans ⟨fun h _ e => Option.some.inj e ▸ h, fun h => h d rfl⟩

theorem srvPulse : Statement .srvPulse := by
  exact ⟨fun _ => trivial, fun _ => rfl⟩

theorem listenTimerExpiry : Statement .listenTimerExpiry := by
  exact ⟨fun _ => trivial, fun _ => rfl⟩

theorem isolationTimerExpiry : Statement .isolationTimerExpiry := by
  exact ⟨fun _ => trivial, fun _ => rfl⟩

theorem frameStart (rivals : List Nat) : Statement (.frameStart rivals) := by
  exact List.all_eq_true.trans (forall_congr' fun r => forall_congr' fun _ => decide_eq_true_iff)

theorem ownFrameSpoiled (checkAgreed : Bool) : Statement (.ownFrameSpoiled checkAgreed) := by
  exact ⟨fun _ => trivial, fun _ => rfl⟩

theorem ownFrameSent (checkAgreed : Bool) : Statement (.ownFrameSent checkAgreed) := by
  exact ⟨fun _ => trivial, fun _ => rfl⟩

theorem frameReceived (bytes : List Byte) (spoiled : Bool) : Statement (.frameReceived bytes spoiled) := by
  exact decide_eq_true_iff

theorem echo : Statement .echo := by
  exact ⟨fun _ => trivial, fun _ => rfl⟩

theorem seizeEcho : Statement .seizeEcho := by
  exact ⟨fun _ => trivial, fun _ => rfl⟩

theorem zoneAskEcho : Statement .zoneAskEcho := by
  exact ⟨fun _ => trivial, fun _ => rfl⟩

theorem isolationProfileEcho : Statement .isolationProfileEcho := by
  exact ⟨fun _ => trivial, fun _ => rfl⟩

theorem profileEcho : Statement .profileEcho := by
  exact ⟨fun _ => trivial, fun _ => rfl⟩

theorem time : Statement .time := by
  exact ⟨fun _ => trivial, fun _ => rfl⟩

theorem call : Statement .call := by
  exact ⟨fun _ => trivial, fun _ => rfl⟩

theorem announce : Statement .announce := by
  exact ⟨fun _ => trivial, fun _ => rfl⟩

theorem quiet : Statement .quiet := by
  exact ⟨fun _ => trivial, fun _ => rfl⟩

theorem wake : Statement .wake := by
  exact ⟨fun _ => trivial, fun _ => rfl⟩

theorem serviceReset : Statement .serviceReset := by
  exact ⟨fun _ => trivial, fun _ => rfl⟩

theorem replayLast : Statement .replayLast := by
  exact ⟨fun _ => trivial, fun _ => rfl⟩

theorem statusQuery : Statement .statusQuery := by
  exact ⟨fun _ => trivial, fun _ => rfl⟩

theorem profile : Statement .profile := by
  exact ⟨fun _ => trivial, fun _ => rfl⟩

theorem seize : Statement .seize := by
  exact ⟨fun _ => trivial, fun _ => rfl⟩

theorem free : Statement .free := by
  exact ⟨fun _ => trivial, fun _ => rfl⟩

theorem zoneAsk : Statement .zoneAsk := by
  exact ⟨fun _ => trivial, fun _ => rfl⟩

theorem zoneLeave : Statement .zoneLeave := by
  exact ⟨fun _ => trivial, fun _ => rfl⟩

theorem zoneAnswer : Statement .zoneAnswer := by
  exact ⟨fun _ => trivial, fun _ => rfl⟩

theorem zoneRevoke : Statement .zoneRevoke := by
  exact ⟨fun _ => trivial, fun _ => rfl⟩

theorem tick : Statement .tick := by
  exact ⟨fun _ => trivial, fun _ => rfl⟩

theorem retentionTimerExpiry (slot : Nat) : Statement (.retentionTimerExpiry slot) := by
  exact decide_eq_true_iff.trans Nat.lt_succ_iff

theorem dwellTimerExpiry (slot : Nat) : Statement (.dwellTimerExpiry slot) := by
  exact decide_eq_true_iff.trans Nat.lt_succ_iff

theorem presenceInputChange (position : Nat) (level : Bool) : Statement (.presenceInputChange position level) := by
  exact decide_eq_true_iff.trans Nat.lt_succ_iff

theorem debounceTimerExpiry (position : Nat) : Statement (.debounceTimerExpiry position) := by
  exact decide_eq_true_iff.trans Nat.lt_succ_iff

theorem triggerRisingEdge (input : Nat) : Statement (.triggerRisingEdge input) := by
  exact decide_eq_true_iff.trans Nat.lt_succ_iff

theorem triggerFallingEdge (input : Nat) : Statement (.triggerFallingEdge input) := by
  exact decide_eq_true_iff.trans Nat.lt_succ_iff

theorem retryTimerExpiry (tag : Nat) : Statement (.retryTimerExpiry tag) := by
  exact decide_eq_true_iff

theorem gapTimerExpiry (tag : Nat) : Statement (.gapTimerExpiry tag) := by
  exact decide_eq_true_iff

theorem templateReadComplete (data : List Byte) : Statement (.templateReadComplete data) := by
  exact decide_eq_true_iff

theorem directoryReadComplete (data : List Byte) : Statement (.directoryReadComplete data) := by
  exact decide_eq_true_iff

theorem audioReadComplete (data : List Byte) : Statement (.audioReadComplete data) := by
  exact decide_eq_true_iff

theorem flashReadNoResponse : Statement .flashReadNoResponse := by
  exact ⟨fun _ => trivial, fun _ => rfl⟩

theorem samplePeriod (carrier : List Bool) : Statement (.samplePeriod carrier) := by
  exact decide_eq_true_iff

theorem gapSilenceEnd (channel : Nat) : Statement (.gapSilenceEnd channel) := by
  exact decide_eq_true_iff.trans Nat.lt_succ_iff

theorem underrun (channel : Nat) : Statement (.underrun channel) := by
  exact decide_eq_true_iff.trans Nat.lt_succ_iff

theorem stall (channel : Nat) : Statement (.stall channel) := by
  exact decide_eq_true_iff.trans Nat.lt_succ_iff

theorem settleTimerExpiry (zone : Nat) : Statement (.settleTimerExpiry zone) := by
  exact decide_eq_true_iff

theorem holdTimerExpiry (zone : Nat) : Statement (.holdTimerExpiry zone) := by
  exact decide_eq_true_iff

theorem expiryTimerExpiry (zone : Nat) : Statement (.expiryTimerExpiry zone) := by
  exact decide_eq_true_iff

theorem waitTimerExpiry (zone node tag : Nat) : Statement (.waitTimerExpiry zone node tag) := by
  exact decide_eq_true_iff.trans ⟨fun h => ⟨⟨h.1, h.2.1⟩, ⟨h.2.2.1, h.2.2.2.1⟩, h.2.2.2.2⟩,
    fun h => ⟨h.1.1, h.1.2, h.2.1.1, h.2.1.2, h.2.2⟩⟩

theorem lineFaultInputChange (output : Nat) (level : Bool) : Statement (.lineFaultInputChange output level) := by
  exact decide_eq_true_iff.trans Nat.lt_succ_iff

theorem trunkViewExpiry (trunk : Nat) : Statement (.trunkViewExpiry trunk) := by
  exact decide_eq_true_iff.trans Nat.lt_succ_iff

theorem trunkWaitTimerExpiry (tag : Nat) : Statement (.trunkWaitTimerExpiry tag) := by
  exact decide_eq_true_iff

theorem answerTimerExpiry (tag home : Nat) : Statement (.answerTimerExpiry tag home) := by
  exact decide_eq_true_iff

theorem gatherTimerExpiry (tag : Nat) : Statement (.gatherTimerExpiry tag) := by
  exact decide_eq_true_iff

theorem readyTimerExpiry (tag : Nat) : Statement (.readyTimerExpiry tag) := by
  exact decide_eq_true_iff

theorem startTimerExpiry (tag : Nat) : Statement (.startTimerExpiry tag) := by
  exact decide_eq_true_iff

theorem backoffTimerExpiry (tag : Nat) : Statement (.backoffTimerExpiry tag) := by
  exact decide_eq_true_iff

theorem ambientReadingCycle (readings : List (Option Nat)) : Statement (.ambientReadingCycle readings) := by
  refine Bool.and_eq_true_iff.trans (and_congr decide_eq_true_iff (List.all_eq_true.trans ?_))
  refine forall_congr' fun r => forall_congr' fun _ => ?_
  cases r <;> simp

theorem silenceTimerExpiry (zone : Nat) : Statement (.silenceTimerExpiry zone) := by
  exact decide_eq_true_iff

theorem releaseTimerExpiry (zone : Nat) : Statement (.releaseTimerExpiry zone) := by
  exact decide_eq_true_iff

end Sys2Proof.Laws.OperandRanges
end

