-- ==== Sys2Proof/Tests/Slice0.lean ====
section
/-! SUPPORT. The model's own tests: an ill-formed term for each check of WellFormed, values the spec works out, and for
every statement of Certificates/Slice0/Obligations.lean the small states that meet its hypotheses. -/

-- One after another: many kernel evaluations waiting at once would each hold a thread.
set_option Elab.async false

/-! ### Small states -/

namespace Sys2Proof.Tests

open Sys2Proof Sys2Proof.Machine

/-- An announcement entry with a template. -/
def entryOf (t : Nat) : Entry := { template := some t, cls := .operational, sel := .face, reps := 0, gap := 10 }

/-- A TIME-BASED step. -/
def stepOf (lead t : Nat) : LadderStep :=
  { kind := .timeBased lead, template := t, cls := .operational, sel := .face, reps := 0, gap := 10 }

/-- Face 3: a departure ladder with leads 900, 300 and 60 s, no arrival ladder. -/
def face3 : FaceCfg :=
  { number := 3, length := 8, zones := [12], concourse := [13],
    arrival := { steps := [none, none, none, none, none, none], delay := entryOf 7 },
    departure := { steps := [some (stepOf 900 1), some (stepOf 300 2), some (stepOf 60 3), none, none, none], delay := entryOf 7 },
    unscheduled := entryOf 8, cancellation := entryOf 9, alteration := entryOf 10 }

/-- One face, zones 12 and 13, trigger inputs with template 4, templates 0..15 provided. -/
def config : Loaded :=
  { resetConfiguration with
    positions := [some face3, none, none, none],
    outputs := [some { zone := 12, level := builtInLevels }, some { zone := 13, level := builtInLevels }, none, none, none,
      none, none, none],
    triggers := [{ template := some 4, cls := .safety, gap := 5, required := [12], optional := [] },
      { template := some 4, cls := .safety, gap := 5, required := [12], optional := [] }],
    templateMap := List.replicate 16 true }

/-- What node 7 reads, ACTIVE at 14:23:40 (service second 44,620) of day 10; zone 40 is at node 9, node 30 a console. -/
def env : Env :=
  { now := 1000,
    part := { state := .active, phase := .readingImage, node := 7, setB := false, safe := false, cfg := config,
              listenTimer := none, isolationTimer := none },
    pins := Pins.reset, clock := { day := 10, second := 51820, known := true, nextTick := some 17000 },
    calls := List.replicate 32 none, faces := buildFaces config Pins.reset.pres,
    peers := (List.replicate 63 Peer.reset).set 29
      { annBit := none, controlBit := none, askBit := none, profile := some { kind := .console, zones := [] } },
    homes := (List.replicate 254 none).set 39 (some 9) }

/-- The works of node 7: zones 12 and 13 idle, everything else empty. -/
def works : Works :=
  { Works.reset with
    zones := { recs := buildZones config false 7 Pins.reset.zflt, arrivals := 0 }, levels := buildLevels config false 7 0 }

/-- Node 7 at rest. -/
def base : State := { pending := [], node := { env := env, ws := works } }

/-- With a participation state. -/
def inState (p : PState) (s : State) : State := s.withEnv { s.env with part := { s.env.part with state := p } }

/-- With a frame at the head of the receive FIFO. -/
def rx (cls : Cls) (source dest : Nat) (p : Payload) (s : State) : State :=
  s.withWs { s.ws with line := { s.ws.line with
    rx := [{ cls := cls, source := source, dest := dest, alt := false, payload := p }] } }

/-- A frame of node 7. -/
def own (p : Payload) : Frame := { cls := .operational, source := 7, dest := 0, alt := false, payload := p }

/-- With an echo due. -/
def echoing (p : Payload) (purpose : TxPurpose) (s : State) : State :=
  s.withWs { s.ws with line := { s.ws.line with echo := some { frame := own p, purpose := purpose, ahead := 0 } } }

/-- With a frame of node 7 on the transmit queue. -/
def queued (p : Payload) (purpose : TxPurpose) (sending : Bool) (s : State) : State :=
  s.withWs { s.ws with line := { s.ws.line with
    tx := [{ frame := own p, purpose := purpose, sending := sending, doomed := false }] } }

/-- A job of tag 5 with template 4 for these required zones, on no channel. -/
def job (required : List Nat) : JobRec :=
  recordOf { origin := .console 30 1, callRef := none, content := .template 4, cls := .operational, reps := 0, gap := 5,
             required := required, optional := [], notBefore := none, replay := none } 5 1

/-- With one job. -/
def withJob (r : JobRec) (s : State) : State := s.withWs { s.ws with jobs := { s.ws.jobs with recs := [r] } }

/-- A phrase of two blocks. -/
def phrase9 : PhraseEntry := { phrase := 9, item := 1, essential := true, start := 1009, blocks := 2, samples := 900 }

/-- A job of tag 5 on channel 0, in a state and a phase, with one required zone of an expanded list. -/
def jobOn0 (st : JobState) (ph : GatherPhase) (zone : Nat) (home : Home) (v : GrantVerdict) : JobRec :=
  { job [zone] with
    state := st, channel := some 0, expanded := some [.phrase phrase9], duration := 1,
    gathering := { Gathering.none with
      phase := ph, hold := 15, grants := [{ zone := zone, required := true, home := home, verdict := v }] } }

/-- With channel 0 changed. -/
def channel0 (c : Channel) (s : State) : State := s.withWs { s.ws with channels := s.ws.channels.set 0 c }

/-- A channel that plays these items. -/
def playingWith (l : List FifoItem) : Channel := { Channel.reset with state := .playing, fifo := l }

/-- With the zone record of zone 12 changed. -/
def zone12 (z : ZoneRec) (s : State) : State :=
  s.withWs { s.ws with zones := { s.ws.zones with recs := s.ws.zones.recs.set 0 z } }

/-- The record of zone 12 in IDLE. -/
def idle12 : ZoneRec := buildZone Pins.reset.zflt 12 [0]

/-- Node 20, job 3, holds zone 12 from trunk 2. -/
def holder20 : Holder := { node := 20, tag := 3, cls := .operational, source := .trunk 2, duration := 9, expiry := 99000 }

/-- A waiting entry of node 21, job 4. -/
def waiter21 (order : Nat) (cls : Cls) : Waiter :=
  { node := 21, tag := 4 + order, cls := cls, source := .trunk 1, duration := 9, order := order, wait := 88000 }

/-- Zone 12 speaks for node 20. -/
def speaking12 : ZoneRec := { idle12 with state := .speaking, holder := some holder20 }

/-- A call of id 77 for face 3, departing at service second 44,730, 190 s late. -/
def call77 : CallBody :=
  { id := 77, rev := 1, day := 10, face := 3, prev := none, kind := .dep, cancelled := false, sArr := none,
    sDep := some 44730, delay := some 190, dest := 200, origin := 0, operator := 0, formation := 0, points := [] }

/-- With the record of that call in slot 0, changed, and current at face 3. -/
def withCall (f : CallRec → CallRec) (s : State) : State :=
  s.withEnv { s.env with
    calls := s.env.calls.set 0 (some (f (newCall call77 none))),
    faces := s.env.faces.map (fun x => x.map (fun r => { r with current := some 0 })) }

/-- The state after a command. -/
def after (c : Instr) (s : State) : State :=
  match exec c s with
  | .next t => t
  | _ => s

/-! ### WellFormed: an ill-formed command for each check, and the edge of its range -/

/-- Straps, image and frames out of their lengths are refused. -/
theorem test_wellFormed_refuses_reset_and_line :
    [Instr.resetRelease 64 false, .configImageTaken (some (List.replicate 4097 0)),
      .frameReceived (List.replicate 70 0) false].all (fun c => !c.wellFormed) = true := by decide +kernel

/-- Slots, positions and inputs out of range are refused. -/
theorem test_wellFormed_refuses_slots_and_inputs :
    [Instr.retentionTimerExpiry 32, .dwellTimerExpiry 32, .presenceInputChange 4 true, .debounceTimerExpiry 4,
      .triggerRisingEdge 2, .triggerFallingEdge 2, .lineFaultInputChange 8 true, .trunkViewExpiry 4].all
      (fun c => !c.wellFormed) = true := by decide

/-- Tags out of range are refused. -/
theorem test_wellFormed_refuses_tags :
    [Instr.retryTimerExpiry 256, .gapTimerExpiry 256, .trunkWaitTimerExpiry 256, .answerTimerExpiry 256 1,
      .answerTimerExpiry 0 0, .answerTimerExpiry 0 64, .gatherTimerExpiry 256, .readyTimerExpiry 256,
      .startTimerExpiry 256, .backoffTimerExpiry 256].all (fun c => !c.wellFormed) = true := by decide

/-- Reads and sample periods of a wrong length, and channels out of range, are refused. -/
theorem test_wellFormed_refuses_reads_and_channels :
    [Instr.templateReadComplete (List.replicate 127 0), .directoryReadComplete (List.replicate 511 0),
      .audioReadComplete (List.replicate 513 0), .samplePeriod [true, true, true], .gapSilenceEnd 2, .underrun 2,
      .stall 2].all (fun c => !c.wellFormed) = true := by decide +kernel

/-- Arbitration fields that no frame of a station carries are refused. -/
theorem test_wellFormed_refuses_rivals :
    [Instr.frameStart [0], .frameStart [64], .frameStart [9, 192], .frameStart [256]].all (fun c => !c.wellFormed) = true := by
  decide

/-- Zones, requesters and readings out of range are refused. -/
theorem test_wellFormed_refuses_zones_and_readings :
    [Instr.settleTimerExpiry 0, .settleTimerExpiry 255, .holdTimerExpiry 0, .holdTimerExpiry 255, .expiryTimerExpiry 0,
      .expiryTimerExpiry 255, .waitTimerExpiry 0 1 0, .waitTimerExpiry 255 1 0, .waitTimerExpiry 1 0 0,
      .waitTimerExpiry 1 64 0, .waitTimerExpiry 1 1 256, .silenceTimerExpiry 0, .silenceTimerExpiry 255,
      .releaseTimerExpiry 0, .releaseTimerExpiry 255, .ambientReadingCycle [none],
      .ambientReadingCycle [some 256, none, none, none, none, none, none, none]].all
      (fun c => !c.wellFormed) = true := by decide

/-- The edges of the ranges are taken. -/
theorem test_wellFormed_takes_the_edges :
    [Instr.resetRelease 63 true, .retentionTimerExpiry 31, .presenceInputChange 3 true, .triggerRisingEdge 1,
      .lineFaultInputChange 7 true, .trunkViewExpiry 3, .gapTimerExpiry 255, .answerTimerExpiry 255 63,
      .settleTimerExpiry 254, .holdTimerExpiry 1, .waitTimerExpiry 254 63 255,
      .ambientReadingCycle [some 255, none, some 0, none, none, none, none, none],
      .samplePeriod [true, false, false, false], .frameStart [1, 127, 255]].all (fun c => c.wellFormed) = true := by decide


/-! ### Values the spec works out -/

/-- The check values of the nine digits: R187 and R76. -/
theorem test_check_values :
    crc16 (toBytes [0x31, 0x32, 0x33, 0x34, 0x35, 0x36, 0x37, 0x38, 0x39]) = 0x29B1
      ∧ crc32 (toBytes [0x31, 0x32, 0x33, 0x34, 0x35, 0x36, 0x37, 0x38, 0x39]) = 0xFC891918 := by decide +kernel

/-- 14:25:30 is service second 44,730 (section 7.3 of 00_scope.md). -/
theorem test_service_second : ({ day := 10, second := 51930, known := true, nextTick := none } : Clock).position = (10, 44730) := by
  decide

/-- The airing of the example of R62 lasts 4 s. -/
theorem test_airing_duration :
    airingDuration (([11088, 3528, 9576, 6048, 5040, 14112].map (fun n =>
      ListEntry.phrase { phrase := 1, item := 1, essential := true, start := 0, blocks := 1, samples := n })) ++ [.gap 7 500]) = 4 := by
  decide +kernel

/-- An airing of 9 s with gather time 5 s declares a hold of 23 s (R133). -/
theorem test_declared_hold : declaredHold 9 5 = 23 := by decide

/-- The two steps of the example of R157. -/
theorem test_estimate_steps : smoothed 1125 120 = 1105 ∧ smoothed 1125 141 = 1125 := by decide

/-- Spoken times: 14:25 with a delay of 4 minutes is 14:29; a whole hour and a minute below ten (R40). -/
theorem test_spoken_times :
    schedPhrases 44730 = [30, 41] ∧ expPhrases 44730 4 = [30, 45] ∧ schedPhrases 43200 = [30, 137]
      ∧ schedPhrases 43500 = [30, 138, 21] := by decide

/-- A delay of 190 s is announced as 4 minutes (R38). -/
theorem test_announced_minutes :
    announcedMinutes (some 190) = 4 ∧ announcedMinutes (some 7200) = 120 ∧ announcedMinutes (some 7201) = 121
      ∧ announcedMinutes none = 0 ∧ announcedMinutes (some 1) = 1 ∧ announcedMinutes (some (-5)) = 0 := by decide

/-- An estimate of 1,142 gives 18.5 dB at OPERATIONAL and 16.5 dB at SAFETY (section 8.6). -/
theorem test_attenuation :
    [Cls.operational, .safety].map
      ({ (buildLevel 0 12 0 builtInLevels) with estimate := some 1142 } : LevelEntry).attenuationFor = [37, 33] := by decide

/-- Serial days and revisions (R2, R5). -/
theorem test_serial :
    serialDiff 0 65535 = 1 ∧ serialDiff 65535 0 = -1 ∧ revOrder 0 255 = .newer ∧ revOrder 127 0 = .newer
      ∧ revOrder 128 0 = .older ∧ revOrder 5 5 = .equal := by decide

/-- Frames of several kinds, built and decoded again (R187 to R189). -/
theorem test_frames_round_trip :
    ([.time 65535 86399, .control (.replayLast 64), .statusQuery, .seize 3 255 250, .free 0 0,
      .zoneAsk 50 0 23 [40, 41], .zoneAnswer 5 [(40, .granted 2000 true), (41, .queued 6), (42, .denied .cls)],
      .zoneRevoke [{ zone := 40, tag := 50, reason := .preempted }], .zoneLeave 9 [254]] : List Payload).all (fun p =>
        decodeFrame (encodeFrame { cls := .safety, source := 63, dest := 7, alt := true, payload := p })
          = some { cls := .safety, source := 63, dest := 7, alt := true, payload := p }) = true := by decide +kernel

/-- A frame is refused when a reserved or range rule is broken (R188): trunk-less lengths, zone 0, hold 251. -/
theorem test_frames_refused :
    ([.zoneAsk 50 0 23 [0], .seize 3 255 251, .time 0 86400, .zoneLeave 9 []] : List Payload).all (fun p =>
        decodeFrame (encodeFrame { cls := .safety, source := 63, dest := 7, alt := false, payload := p }) = none) = true := by
  decide +kernel

/-! ### States that meet the hypotheses of the statements -/

/-- The frame `f` is next in the receive FIFO and carries `p`. -/
abbrev headIs (s : State) (f : Frame) (p : Payload) : Prop := s.passes f [] ∧ f.payload = p

/-- The frame `rx` puts into the FIFO. -/
def msg (cls : Cls) (source dest : Nat) (p : Payload) : Frame :=
  { cls := cls, source := source, dest := dest, alt := false, payload := p }

/-- Node 7 in START reads the image. -/
def reading : State :=
  State.reset.withEnv { State.reset.env with part := { State.reset.env.part with node := 7, phase := .readingImage } }

/-- Node 7 in LISTEN. -/
def listening : State :=
  base.withEnv { base.env with part := { base.env.part with state := .listen, listenTimer := some 33000 } }

/-- Node 7 ISOLATED. -/
def isolated : State :=
  base.withEnv { base.env with part := { base.env.part with state := .isolated, isolationTimer := some 161000 } }

/-- A configuration image whose fields take the defaults, with one zone output, zone 12. -/
def image : List Byte :=
  let body := toBytes ([0x4E, 0x42, 0x36, 0x34, 0, 1, 2, 149] ++ List.replicate 18 255 ++ [224] ++ List.replicate 420 0
    ++ [12, 0, 200, 0, 140, 0, 188, 0, 130, 30, 24, 20, 16] ++ List.replicate 197 0)
  let c := crc32 body
  body ++ two (c / 65536) ++ two (c % 65536)

/-- Node 7 at the end of its LISTEN time. -/
def listened : State :=
  base.withEnv { base.env with part := { base.env.part with state := .listen, listenTimer := some base.env.now } }

/-- StepRunsTheCommandAtTheFront has no hypothesis; the idle clauses of the second statement: a timer that runs out now,
and none that does. -/
theorem test_meets_idle :
    base.pending = [] ∧ dueCommands base.node = [] ∧ listened.pending = []
      ∧ dueCommands listened.node = [.listenTimerExpiry] := by decide +kernel

/-- StartReadsStrapsAndImage, the straps. -/
theorem test_meets_StartReadsStrapsAndImage_straps :
    State.reset.rested ∧ State.reset.env.part.state = .start ∧ State.reset.env.part.phase = .resetAsserted := by decide +kernel

/-- StartReadsStrapsAndImage, the image: an accepted one of set A, none, and a refused one. -/
theorem test_meets_StartReadsStrapsAndImage_image :
    reading.rested ∧ reading.env.part.state = .start ∧ reading.env.part.phase = .readingImage ∧ reading.ws.line.tx = []
      ∧ reading.ws.report.faults = {} ∧ reading.ws.report.wf ∧ imageAccepted image = true ∧ imageAccepted (image.drop 1) = false := by decide +kernel

/-- ParticipationChanges: the listen timer. -/
theorem test_meets_ParticipationChanges_listen :
    listening.env.part.state = .listen ∧ listening.env.part.listenTimer.isSome = true ∧ listening.rested
      ∧ listening.ws.jobs.recs = [] := by decide +kernel

/-- ParticipationChanges: QUIET. -/
theorem test_meets_ParticipationChanges_quiet :
    let s := rx .information 30 7 (.control .quiet) base
    headIs s (msg .information 30 7 (.control .quiet)) (.control .quiet) ∧ s.env.part.state = .active ∧ s.rested
      ∧ s.ws.jobs.recs = [] := by decide +kernel

/-- ParticipationChanges: WAKE. -/
theorem test_meets_ParticipationChanges_wake :
    let s := rx .information 30 0 (.control .wake) (inState .quiet base)
    headIs s (msg .information 30 0 (.control .wake)) (.control .wake) ∧ s.env.part.state = .quiet ∧ s.rested
      ∧ s.ws.jobs.recs = [] := by decide +kernel

/-- ParticipationChanges: QUIET and WAKE where they are ignored. -/
theorem test_meets_ParticipationChanges_ignored :
    (let s := rx .information 30 7 (.control .quiet) listening
     s.rested ∧ headIs s (msg .information 30 7 (.control .quiet)) (.control .quiet) ∧ s.env.part.state ≠ .active)
      ∧ (let s := rx .information 30 7 (.control .wake) base
         s.rested ∧ headIs s (msg .information 30 7 (.control .wake)) (.control .wake) ∧ s.env.part.state ≠ .quiet) := by
  decide +kernel

/-- ParticipationChanges: QUIET with a QUEUED job, and with an AIRING one. -/
theorem test_meets_ParticipationChanges_suppresses :
    [job [12], jobOn0 .airing .airing 12 .local (.granted 900 false)].all (fun r =>
      let s := rx .information 30 7 (.control .quiet) (withJob r base)
      decide (s.rested ∧ headIs s (msg .information 30 7 (.control .quiet)) (.control .quiet) ∧ s.env.part.state = .active
        ∧ s.ws.jobs.recs = [r] ∧ 2 ≤ r.cls.rank)) = true
      ∧ (job [12]).state = .queued ∧ (job [12]).channel = none := by decide +kernel

/-- IsolationEndsByItsProfile: the isolation timer, with an isolation PROFILE queued and with none. -/
theorem test_meets_IsolationEndsByItsProfile_timer :
    isolated.rested ∧ isolated.env.part.state = .isolated ∧ isolated.env.part.isolationTimer.isSome = true
      ∧ isolated.ws.line.hasIsolationProfile = false ∧ isolated.ws.room
      ∧ (queued .statusQuery .isolationProfile false isolated).ws.line.hasIsolationProfile = true := by decide +kernel

/-- A PROFILE of node 7. -/
def profile7 : ProfileBody :=
  { node := 7, kind := .zoneNode, revision := 1, request := false, recovered := false, trunks := 15, faces := [3],
    zones := [12, 13] }

/-- IsolationEndsByItsProfile: the two echoes, the second also while ISOLATED again. -/
theorem test_meets_IsolationEndsByItsProfile_echoes :
    (let s := echoing (.profile profile7) .isolationProfile isolated
     s.echoDue { frame := own (.profile profile7), purpose := .isolationProfile, ahead := 0 } ∧ s.env.part.state = .isolated)
      ∧ (let s := echoing (.profile profile7) .listenProfile listening
         s.echoDue { frame := own (.profile profile7), purpose := .listenProfile, ahead := 0 } ∧ s.env.part.state ≠ .isolated)
      ∧ (let s := echoing (.profile profile7) .listenProfile isolated
         s.echoDue { frame := own (.profile profile7), purpose := .listenProfile, ahead := 0 } ∧ s.env.part.state = .isolated) := by
  decide +kernel

/-- ServiceResetEmptiesTheTables: the pulse, in ACTIVE and in START. -/
theorem test_meets_ServiceResetEmptiesTheTables_pulse :
    base.rested ∧ base.env.part.state ≠ .start ∧ State.reset.rested ∧ State.reset.env.part.state = .start := by decide +kernel

/-- ServiceResetEmptiesTheTables: the frame, addressed here and to every node. -/
theorem test_meets_ServiceResetEmptiesTheTables_frame :
    (let s := rx .information 30 7 (.control .serviceReset) base
     s.rested ∧ headIs s (msg .information 30 7 (.control .serviceReset)) (.control .serviceReset)
       ∧ (msg .information 30 7 (.control .serviceReset)).dest = s.env.part.node ∧ s.env.part.state ≠ .start)
      ∧ (let s := rx .information 30 0 (.control .serviceReset) base
         s.rested ∧ headIs s (msg .information 30 0 (.control .serviceReset)) (.control .serviceReset)
           ∧ (msg .information 30 0 (.control .serviceReset)).dest ≠ s.env.part.node) := by decide +kernel

/-- OwnFramesStartAndPass: a queued frame, and one in transmission. -/
theorem test_meets_OwnFramesStartAndPass :
    (let s := queued .statusQuery .plain false base
     s.rested ∧ s.env.part.state ≠ .start ∧ s.ws.line.echo = none
       ∧ s.ws.line.tx = [{ frame := own .statusQuery, purpose := .plain, sending := false, doomed := false }])
      ∧ (let s := queued .statusQuery .plain true base
         s.rested ∧ s.ws.line.tx.find? (·.sending)
           = some { frame := own .statusQuery, purpose := .plain, sending := true, doomed := false }
           ∧ s.ws.line.spoilRun < 16
           ∧ 16 ≤ ({ s.ws.line with spoilRun := 16 } : Line).spoilRun) := by decide +kernel

/-- Node 7's STATUS-QUERY passes against a worse class and a higher node of its own class, and loses to a lower node. -/
theorem test_arbitration :
    let field := (own .statusQuery).arbitration
    [[], [field + 1, 255], [field - 1, 255]].map (fun rivals =>
      (after (.frameStart rivals) (queued .statusQuery .plain false base)).ws.line.tx.map (·.sending))
      = [[true], [true], [false]] := by decide +kernel

/-- Node 7 with the own-spoil count at `n`, a frame in transmission. -/
def spoiling (n : Nat) (purpose : TxPurpose) : State :=
  let s := queued .statusQuery purpose true base
  s.withWs { s.ws with line := { s.ws.line with ownSpoils := n } }

/-- OwnFrameSpoiledCountsToIsolation: counts 2 and 1, a plain frame and an isolation PROFILE. -/
theorem test_meets_OwnFrameSpoiledCountsToIsolation :
    [(2, TxPurpose.plain), (2, .isolationProfile), (1, .plain)].all (fun x =>
      let s := spoiling x.1 x.2
      decide (s.ws.line.tx.find? (·.sending) = some { frame := own .statusQuery, purpose := x.2, sending := true, doomed := false }
        ∧ s.env.onLine ∧ s.rested ∧ s.ws.line.ownSpoils = x.1)) = true := by decide +kernel

/-- A FREE frame of node 9. -/
def free9 : Frame := msg .information 9 0 (.free 2 8)

/-- FramesReceivedAreTakenOrCounted: a good frame that is taken, a bad one, a duplicate, and a full FIFO. -/
theorem test_meets_FramesReceivedAreTakenOrCounted :
    base.rested ∧ base.env.part.state ≠ .start ∧ isOwnFrame base.ws.line (encodeFrame free9) = false
      ∧ frameGood (encodeFrame free9) = true ∧ decodeFrame (encodeFrame free9) = some free9
      ∧ free9.source ≠ base.env.part.node ∧ free9.dest = 0 ∧ ofInterest base.env base.ws free9 = true
      ∧ isDuplicate base.env free9 = false ∧ base.ws.line.rx.length < rxCapacity
      ∧ frameGood ((encodeFrame free9).drop 1) = false ∧ isOwnFrame base.ws.line ((encodeFrame free9).drop 1) = false := by
  decide +kernel

/-- A ZONE-LEAVE of zone 0, which is malformed. -/
def badLeave : Frame := msg .operational 9 0 (.zoneLeave 1 [0])

/-- A STATUS-QUERY for node 8. -/
def farQuery : Frame := msg .information 30 8 .statusQuery

/-- FramesReceivedAreTakenOrCounted: a malformed frame, one for another node, and START. -/
theorem test_meets_FramesReceivedAreTakenOrCounted_passed_over :
    isOwnFrame base.ws.line (encodeFrame badLeave) = false ∧ frameGood (encodeFrame badLeave) = true
      ∧ decodeFrame (encodeFrame badLeave) = none ∧ byteAt (encodeFrame badLeave) 0 % 64 ≠ base.env.part.node
      ∧ frameGood (encodeFrame farQuery) = true ∧ decodeFrame (encodeFrame farQuery) = some farQuery
      ∧ farQuery.dest ≠ 0 ∧ farQuery.dest ≠ base.env.part.node ∧ State.reset.rested
      ∧ State.reset.env.part.state = .start := by decide +kernel

/-- Node 7 having heard alternation bit 0 from node 30, its FIFO full. -/
def fullFifo : State :=
  let s := base.withEnv (base.env.modPeer 30 (fun p => { p with controlBit := some false }))
  s.withWs { s.ws with line := { s.ws.line with rx := List.replicate 8 free9 } }

/-- FramesReceivedAreTakenOrCounted: a duplicate, and an overrun. -/
theorem test_meets_FramesReceivedAreTakenOrCounted_dropped :
    let f := msg .information 30 7 (.control .quiet)
    isOwnFrame fullFifo.ws.line (encodeFrame f) = false ∧ frameGood (encodeFrame f) = true ∧ decodeFrame (encodeFrame f) = some f
      ∧ ofInterest fullFifo.env fullFifo.ws f = true ∧ isDuplicate fullFifo.env f = true
      ∧ isDuplicate fullFifo.env free9 = false ∧ ofInterest fullFifo.env fullFifo.ws free9 = true
      ∧ rxCapacity ≤ fullFifo.ws.line.rx.length := by decide +kernel

/-- EchoesLeaveTheEchoPlace: the echo of a plain frame, and of a ZONE-ASK of a job in phase ZONES: of its present round, of
an earlier one, and of no job. -/
theorem test_meets_EchoesLeaveTheEchoPlace :
    (echoing .statusQuery .plain base).rested
      ∧ (echoing .statusQuery .plain base).echoDue { frame := own .statusQuery, purpose := .plain, ahead := 0 }
      ∧ (let r0 := jobOn0 .gathering .zones 40 (.remote 9) .waiting
         let r := { r0 with gathering := { r0.gathering with ask := some 4 } }
         [4, 3].all (fun serial =>
           let s := echoing (.zoneAsk 5 0 15 [40]) (.ask serial) (withJob r base)
           decide (s.rested ∧ s.echoDue { frame := own (.zoneAsk 5 0 15 [40]), purpose := .ask serial, ahead := 0 }
             ∧ s.ws.liveJob 5 = some r ∧ r.gathering.phase = .zones ∧ (r.gathering.ask = some serial ↔ serial = 4))) = true)
      ∧ (echoing (.zoneAsk 5 0 15 [40]) (.ask 4) base).ws.liveJob 5 = none := by decide +kernel

/-- Node 7's view of trunk 1 is HELD. -/
def held1 (node : Nat) (s : State) : State :=
  s.withWs { s.ws with trunks := [none, some { node := node, tag := 5, expiry := 50000 }, none, none] }

/-- OwnTrunkEchoesReachTheView: SEIZE on a FREE and on a HELD entry, FREE of the own and of another's entry. -/
theorem test_meets_OwnTrunkEchoesReachTheView :
    (let s := echoing (.seize 1 5 15) .plain base
     s.echoDue { frame := own (.seize 1 5 15), purpose := .plain, ahead := 0 } ∧ s.ws.trunk 1 = none)
      ∧ (let s := echoing (.seize 1 5 15) .plain (held1 9 base)
         s.echoDue { frame := own (.seize 1 5 15), purpose := .plain, ahead := 0 } ∧ s.ws.trunk 1 ≠ none)
      ∧ [7, 9].all (fun n =>
          let s := echoing (.free 1 5) .plain (held1 n base)
          decide (s.echoDue { frame := own (.free 1 5), purpose := .plain, ahead := 0 }
            ∧ s.ws.trunk 1 = some { node := n, tag := 5, expiry := 50000 })) = true := by decide +kernel

/-- A PROFILE of node 9, with and without its request flag. -/
def profile9 (request : Bool) : ProfileBody :=
  { node := 9, kind := .zoneNode, revision := 1, request := request, recovered := false, trunks := 15, faces := [],
    zones := [41, 254] }

/-- ProfileUpdatesMapAndPeer. -/
theorem test_meets_ProfileUpdatesMapAndPeer :
    [true, false].all (fun b =>
      let s := rx .information 9 0 (.profile (profile9 b)) base
      decide (headIs s (msg .information 9 0 (.profile (profile9 b))) (.profile (profile9 b)) ∧ zonesOk (profile9 b).zones
        ∧ s.node.sized ∧ (profile9 b).request = b)) = true := by decide +kernel

/-- A full transmit queue. -/
def fullQueue (s : State) : State :=
  s.withWs { s.ws with line := { s.ws.line with
    tx := List.replicate 12 { frame := own .statusQuery, purpose := .plain, sending := false, doomed := false } } }

/-- StatusQueryIsAnswered: refused in ISOLATED and on a full queue. -/
theorem test_meets_StatusQueryIsAnswered_refused :
    (let s := rx .information 30 7 .statusQuery isolated
     s.rested ∧ headIs s (msg .information 30 7 .statusQuery) .statusQuery ∧ s.env.part.state = .isolated)
      ∧ (let s := rx .information 30 7 .statusQuery (fullQueue base)
         s.rested ∧ headIs s (msg .information 30 7 .statusQuery) .statusQuery ∧ s.env.onLine ∧ ¬ s.ws.room) := by
  decide +kernel

/-- StatusQueryIsAnswered. -/
theorem test_meets_StatusQueryIsAnswered :
    let s := rx .information 30 7 .statusQuery base
    s.rested ∧ headIs s (msg .information 30 7 .statusQuery) .statusQuery ∧ s.env.onLine ∧ s.ws.room := by decide +kernel

/-- With the clock changed. -/
def withClock (c : Clock) (s : State) : State := s.withEnv { s.env with clock := c }

/-- TimeAndTickMoveTheClock: TIME, with the clock KNOWN and UNKNOWN. -/
theorem test_meets_TimeAndTickMoveTheClock_time :
    [base.env.clock, Clock.reset].all (fun c =>
      let s := rx .information 20 0 (.time 3 86399) (withClock c base)
      decide (headIs s (msg .information 20 0 (.time 3 86399)) (.time 3 86399))) = true := by decide +kernel

/-- TimeAndTickMoveTheClock: a tick inside a day, at its end, at the end of day 65,535, and none while UNKNOWN. -/
theorem test_meets_TimeAndTickMoveTheClock_tick :
    [(10, 51820), (10, 86399), (65535, 86399)].all (fun x =>
      let s := withClock { day := x.1, second := x.2, known := true, nextTick := some 17000 } base
      decide (s.env.clock.known = true ∧ s.env.clock.nextTick.isSome = true ∧ s.env.clock.wf)) = true
      ∧ (withClock Clock.reset base).rested ∧ (withClock Clock.reset base).env.clock.known = false := by decide +kernel

/-- NewCallTakesAFreeSlot. -/
theorem test_meets_NewCallTakesAFreeSlot :
    let s := rx .operational 20 0 (.call call77) base
    headIs s (msg .operational 20 0 (.call call77)) (.call call77) ∧ s.node.sized ∧ call77.cancelled = false
      ∧ lacksTime call77 = false ∧ ¬ (s.env.clock.known = true ∧ outsideWindow s.env call77.day = true)
      ∧ slotOf s.env call77.id = none ∧ s.env.serves call77.face = true ∧ freeSlot s.env = some 0 := by decide +kernel

/-- CallRevisionsAreSerial: the same revision, an older one (129 less), and a newer cancellation (127 more). -/
theorem test_meets_CallRevisionsAreSerial :
    [(1, 1), (129, 1), (3, 130), (128, 1)].all (fun x =>
      let b := { call77 with rev := x.1, cancelled := true }
      let s := rx .operational 20 0 (.call b) (withCall (fun c => { c with rev := x.2 }) base)
      decide (headIs s (msg .operational 20 0 (.call b)) (.call b) ∧ s.rested ∧ s.node.sized
        ∧ ¬ (s.env.clock.known = true ∧ outsideWindow s.env b.day = true)
        ∧ slotOf s.env b.id = some (0, { newCall call77 none with rev := x.2 }) ∧ b.day = (newCall call77 none).day
        ∧ (newCall call77 none).state.live = true)) = true
      ∧ (129 + 256 - 1) % 256 = 128 ∧ (3 + 256 - 130) % 256 = 129 ∧ (128 + 256 - 1) % 256 = 127 := by decide +kernel

/-- SlotTimersRetireAndFree: a slot whose retention runs, and one whose dwell runs AT-PLATFORM. -/
theorem test_meets_SlotTimersRetireAndFree :
    (let s := withCall (fun c => { c with state := .departed, retention := some 9000 }) base
     s.rested ∧ s.env.callAt 0 = some { newCall call77 none with state := .departed, retention := some 9000 })
      ∧ (let s := withCall (fun c => { c with state := .atPlatform, dwell := some 9000 }) base
         s.node.sized ∧ s.env.callAt 0 = some { newCall call77 none with state := .atPlatform, dwell := some 9000 }) := by
  decide +kernel

/-- The record of face 3 at start. -/
def faceRec (presence : Bool) (current : Option Nat) : FaceRec :=
  { cfg := face3, presence := presence, debounce := some 9000, current := current }

/-- Node 7 whose face 3 debounces: the input level, the debounced presence, and a call in slot 0 that is current. -/
def debouncing (level presence : Bool) (st : Option CallState) : State :=
  let s := base.withEnv { base.env with
    pins := { base.env.pins with pres := [level, false, false, false] },
    faces := [some (faceRec presence (st.map (fun _ => 0))), none, none, none] }
  match st with
  | none => s
  | some k => s.withEnv { s.env with calls := s.env.calls.set 0 (some { newCall call77 none with state := k }) }

/-- PresenceIsDebouncedAndActs: a change of the input, to and from the debounced level. -/
theorem test_meets_PresenceIsDebouncedAndActs_change :
    [(true, false), (true, true)].all (fun x =>
      let s := debouncing (!x.1) x.2 none
      decide (s.rested ∧ levelAt s.env.pins.pres 0 ≠ x.1 ∧ s.env.faces[0]? = some (some (faceRec x.2 none)))) = true := by
  decide +kernel

/-- PresenceIsDebouncedAndActs: a rise without a call, a rise with a call PLANNED or DUE, a fall with one at its face. -/
theorem test_meets_PresenceIsDebouncedAndActs_expiry :
    [(true, none), (true, some CallState.planned), (true, some .due), (false, some .atPlatform), (false, some .closing)].all (fun x =>
      let s := debouncing x.1 (!x.1) x.2
      decide (s.node.sized ∧ s.ws.report.wf ∧ s.env.faces[0]? = some (some (faceRec (!x.1) (x.2.map (fun _ => 0))))
        ∧ (faceRec (!x.1) none).debounce.isSome = true ∧ levelAt s.env.pins.pres 0 = x.1
        ∧ s.env.callAt 0 = x.2.map (fun k => { newCall call77 none with state := k }))) = true := by decide +kernel

/-- LadderFiresOnlyTheLatestDueStep: at service second 44,620 the lead 300 of a departure expected at 44,920 is due in
time; 91 s later it is past the grace of 90 s. -/
theorem test_meets_LadderFiresOnlyTheLatestDueStep :
    [44620, 44711].all (fun t =>
      let e := { env with clock := { env.clock with second := t + 7200 } }
      let c := newCall call77 none
      decide (c.steps.length = 12 ∧ (ladderOf face3 .departure).steps.length ≤ 6
        ∧ latestStep (dueSteps e c .departure 44920 (ladderOf face3 .departure)) = some (1, 300, stepOf 300 2)
        ∧ (-(e.part.cfg.settings.grace : Int) ≤ stepRelative e c 44920 300 ↔ t = 44620))) = true := by decide +kernel

/-- The console request for template 4 in zone 12, and one for a template that is not provided. -/
def announce (template : Nat) : AnnounceBody :=
  { request := 9, content := .template template, callMatch := none, notBefore := some 45000, reps := 1, gap := 5,
    required := [12], optional := [13] }

/-- Node 7 with both channels taken. -/
def busy (s : State) : State :=
  s.withWs { s.ws with channels := s.ws.channels.map (fun c => { c with state := .reserved }) }

/-- AnnounceMakesAJob: accepted, and refused. -/
theorem test_meets_AnnounceMakesAJob :
    (let s := rx .emergency 30 7 (.announce (announce 4)) (busy base)
     let f := msg .emergency 30 7 (.announce (announce 4))
     s.rested ∧ headIs s f (.announce (announce 4)) ∧ provided s.env 4 = true ∧ isConsole s.env f.source = true
       ∧ ¬ (s.env.part.state = .quiet ∧ 2 ≤ f.cls.rank) ∧ s.ws.jobs.recs.length < jobCapacity ∧ ¬ canDispatch s.env s.ws)
      ∧ (let s := rx .operational 30 7 (.announce (announce 16)) base
         s.rested ∧ headIs s (msg .operational 30 7 (.announce (announce 16))) (.announce (announce 16))
           ∧ provided s.env 16 = false ∧ s.env.onLine ∧ s.ws.room) := by decide +kernel

/-- What face 3 last aired. -/
def lastAired3 : LastAired :=
  { cls := .operational, content := .template 4, required := [12], optional := [], list := [.phrase phrase9], duration := 1 }

/-- Node 7 that keeps it, both channels taken. -/
def aired : State :=
  let s := busy base
  s.withWs { s.ws with jobs := { s.ws.jobs with lastAired := [some lastAired3, none, none, none, none] } }

/-- ReplayAndTriggersMakeJobs: a replay of face 3, a rising edge, and a falling edge. -/
theorem test_meets_ReplayAndTriggersMakeJobs :
    (let s := rx .information 30 7 (.control (.replayLast 3)) aired
     s.rested ∧ headIs s (msg .information 30 7 (.control (.replayLast 3))) (.control (.replayLast 3))
       ∧ s.ws.replaySource s.env 3 = some lastAired3 ∧ s.env.part.state = .active ∧ s.ws.jobs.recs.length < jobCapacity
       ∧ ¬ canDispatch s.env s.ws)
      ∧ (let s := busy base
         s.rested ∧ levelAt s.env.pins.trig 1 = false ∧ s.env.part.state ≠ .start ∧ s.ws.triggerJob 1 = none
           ∧ (triggerRequest s.env 1).isSome = true ∧ s.ws.jobs.recs.length < jobCapacity ∧ ¬ canDispatch s.env s.ws)
      ∧ (let s := withJob (job [12]) (base.withEnv { base.env with pins := { base.env.pins with trig := [true, false] } })
         let s := s.withWs { s.ws with jobs := { s.ws.jobs with triggerJobs := [some 5, none] } }
         s.rested ∧ levelAt s.env.pins.trig 0 = true ∧ s.env.part.state ≠ .start ∧ s.ws.triggerJob 0 = some 5
           ∧ s.ws.job 5 = some (job [12]) ∧ (job [12]).state ≠ .gap) := by decide +kernel

/-- GapAndRetryTimersGoOn: a job in GAP on channel 0, and one in RETRY-WAIT with the channels taken and with them free. -/
theorem test_meets_GapAndRetryTimersGoOn :
    (let r := { jobOn0 .gap .idle 12 .local .left with gapTimer := some 9000 }
     let s := withJob r (channel0 { Channel.reset with state := .held } base)
     s.rested ∧ s.node.sized ∧ s.ws.jobs.recs = [r] ∧ r.gapTimer.isSome = true ∧ r.isReplay = false ∧ r.callRef = none
       ∧ r.content = .template 4 ∧ r.channel = some 0)
      ∧ [base, busy base].all (fun b =>
          let r := { job [12] with state := .retryWait, retryTimer := some 9000 }
          let s := withJob r b
          decide (s.rested ∧ s.node.sized ∧ s.ws.jobs.recs = [r] ∧ r.retryTimer.isSome = true ∧ r.channel = none
            ∧ r.callRef = none ∧ r.isReplay = false ∧ r.notBefore = none ∧ r.content = .template 4)) = true
      ∧ ¬ canDispatch (busy base).env (busy base).ws
      ∧ base.env.part.state = .active ∧ (base.ws.channel 0).state = .free := by decide +kernel

/-- Job 5 airs on channel 0, whose FIFO holds these items. -/
def airing (reps : Nat) (l : List FifoItem) : State :=
  withJob { jobOn0 .airing .airing 12 .local (.granted 900 false) with repsLeft := reps } (channel0 (playingWith l) base)

/-- EndOfAudioCompletesOrRepeats: no further airing due, and one due. -/
theorem test_meets_EndOfAudioCompletesOrRepeats :
    [0, 1].all (fun reps =>
      let s := airing reps [.listEnd]
      let r := { jobOn0 .airing .airing 12 .local (.granted 900 false) with repsLeft := reps }
      decide (s.rested ∧ s.node.sized ∧ s.ws.report.wf ∧ (s.ws.channel 0).state = .playing
        ∧ (s.ws.channel 0).fifo = [.listEnd] ∧ (s.ws.channel 0).position = none ∧ (s.ws.channel 1).plays = false
        ∧ s.ws.jobs.recs = [r] ∧ r.channel = some 0 ∧ r.state = .airing ∧ r.ending = none
        ∧ r.furtherDue = decide (reps = 1))) = true := by decide +kernel

/-- The same job, bound for zone 12, with the face of its last snapshot. -/
def boundAiring (face : Option Nat) : State :=
  withJob { jobOn0 .airing .airing 12 .local (.granted 900 false) with
    lastBound := some { list := [.phrase phrase9], duration := 1 }, lastFace := face } (channel0 (playingWith [.listEnd]) base)

/-- What it leaves in the last-aired records: that of face 3, or the general one (R71). -/
theorem test_last_aired_by_the_last_snapshot :
    [some 3, none].map (fun f =>
      (after (.samplePeriod [false, false, false, false]) (boundAiring f)).ws.jobs.lastAired)
      = [[some lastAired3, none, none, none, none], [none, none, none, none, some lastAired3]] := by decide +kernel

/-- A snapshot at binding takes the place of an earlier one, and a call that is gone leaves the earlier one (R58, R71). -/
theorem test_last_snapshot_face :
    let r := { job [12] with callRef := some { slot := 0, id := 77, rev := 1 }, origin := .alteration 0, lastFace := some 9 }
    let s := withCall id (withJob r base)
    (s.ws.enterBinding s.env 5).jobs.recs.map (·.lastFace) = [some 3]
      ∧ (r.takeSnapshot none).lastFace = some 9 := by decide +kernel

/-- Job 5 binds on channel 0, with a read on the port. -/
def bindingOn (read : BindRead) : State :=
  let r := { jobOn0 .binding .idle 12 .local .left with
    binding := some { awaitingTemplate := true, bound := [], todo := [], failed := false } }
  let s := withJob r (channel0 { Channel.reset with state := .reserved } base)
  s.withWs { s.ws with flash := { s.ws.flash with port := some (.bind 0 read true) } }

/-- A template whose two items are the FIXED phrases 0 and 500. -/
def template500 : List Byte := toBytes [2, 0, 0, 0, 32, 0, 0, 0, 32, 1, 244, 0]

/-- A directory block whose entry 52, phrase 500 in block 7, is of two blocks at 1,024 with 900 samples. -/
def directory7 : List Byte := List.replicate 416 0 ++ toBytes [0, 4, 0, 2, 0, 3, 132, 0] ++ List.replicate 88 0

/-- A phrase still to look up. -/
def unread (phrase : Nat) : ListEntry := .phrase { phrase9 with phrase := phrase, start := 0, blocks := 0, samples := 0 }

/-- Job 5, for zone 40 of node 9, binds on channel 0 with these entries done and to do, directory block 7 on the port. -/
def lookingUp (stale failed : Bool) (bound todo : List ListEntry) : State :=
  let s := bindingOn (.directory 7)
  withJob { job [40] with
    state := .binding, channel := some 0, staleMark := stale,
    binding := some { awaitingTemplate := false, bound := bound, todo := todo, failed := failed } } s

/-- BindingReadsGoOnAndFail: what a directory read of the one bound job meets, for each clause. -/
theorem test_meets_BindingReadsGoOnAndFail_directory :
    [lookingUp false false [] [unread 500, unread 9], lookingUp true true [] [unread 500],
      lookingUp false true [] [unread 500], lookingUp false false [.gap 0 100000, .gap 0 100000] [unread 500],
      lookingUp false false [] []].all (fun s =>
        decide (s.rested ∧ s.node.sized ∧ s.ws.report.wf ∧ s.ws.room ∧ s.ws.flash.port = some (.bind 0 (.directory 7) true)
          ∧ s.ws.report.faults.flashPort = false ∧ s.env.part.state = .active ∧ (s.ws.stream 0).state = .idle
          ∧ s.ws.homes 40 = false ∧ (s.env.homeOf 40).isSome = true)
        && s.ws.jobs.recs.all (fun r => decide (r.channel = some 0 ∧ r.ending = none ∧ s.reportable r ∧ r.required = [40])))
      = true
      ∧ (lookUps (some (7, directory7)) [unread 500, unread 9]).2.map ListEntry.isPhrase = [true]
      ∧ neededBlock (lookUps (some (7, directory7)) [unread 500, unread 9]).2 = some 0
      ∧ lookUps (some (7, directory7)) [unread 500]
          = ([.phrase { phrase9 with phrase := 500, start := 1024, blocks := 2, samples := 900 }], []) := by decide +kernel

/-- What they come to: another block asked for; the job ends STALE, BIND-FAIL, or for want of a response. -/
theorem test_directory_read_carries_binding_on :
    (let s := after (.directoryReadComplete directory7) (lookingUp false false [] [unread 500, unread 9])
     s.ws.flash.port = some (.bind 0 (.directory 0) true)
       ∧ s.ws.jobs.recs.map (fun r => r.binding.map (fun b => (b.bound.length, b.todo))) = [some (1, [unread 9])])
      ∧ ([lookingUp true true [] [unread 500], lookingUp false true [] [unread 500]].map (fun s =>
            let t := after (.directoryReadComplete directory7) s
            (t.ws.jobs.recs.length, t.ws.line.tx.map (fun x =>
              match x.frame.payload with | .jobReport b => some (b.tag, b.code) | _ => none))))
          = [(0, [some (5, Code.stale)]), (0, [some (5, Code.bindFail)])]
      ∧ (after .flashReadNoResponse (lookingUp false false [] [unread 500])).ws.jobs.recs.length = 0 := by decide +kernel

/-- A binding that ends well enters GATHERING with its list, cut to 180 s in the second case (R62, R63). -/
theorem test_directory_read_ends_binding :
    [(lookingUp false false [] [unread 500], 1, false),
      (lookingUp false false [.gap 0 100000, .gap 0 100000] [unread 500], 100, true)].all (fun x =>
        let t := after (.directoryReadComplete directory7) x.1
        decide ((t.ws.channel 0).state = .filling ∧ (t.ws.stream 0).list.length = 1 ∧ t.ws.jobs.recs.length = 1)
        && t.ws.jobs.recs.all (fun r => decide (r.state = .gathering ∧ r.binding = none ∧ r.duration = x.2.1
            ∧ r.expanded = some (t.ws.stream 0).list ∧ r.flags.truncated = x.2.2 ∧ r.gathering.phase = .trunk
            ∧ r.gathering.hold = declaredHold x.2.1 t.env.part.cfg.settings.gather))) = true := by decide +kernel

/-- BindingReadsGoOnAndFail: a template read, a directory read, and no response. -/
theorem test_meets_BindingReadsGoOnAndFail :
    (let s := bindingOn (.template 4)
     s.rested ∧ s.ws.flash.port = some (.bind 0 (.template 4) true) ∧ s.ws.report.faults.flashPort = false
       ∧ (s.ws.jobs.recs.map (fun r => (r.tag, r.channel, r.binding.isSome)) = [(5, some 0, true)])
       ∧ (s.ws.jobs.recs.map (fun r =>
            neededBlock (lookUps s.ws.flash.cache (expandItems (contextOf s.env r) (templateItems template500)).1).2)
          = [some 7]))
      ∧ (bindingOn (.directory 7)).ws.flash.port = some (.bind 0 (.directory 7) true) := by decide +kernel

/-- A block of 504 equal samples with its phrase, index and check; a wrong check when `bad`. -/
def audioBlock (phrase index : Nat) (bad : Bool) : List Byte :=
  let body := toBytes (List.replicate 504 0x35) ++ two phrase ++ two index
  let c := crc32 body
  body ++ two (c / 65536) ++ two (c % 65536 + bit bad)

/-- Stream 0 reads block `index` of phrase 9, channel 0 plays. -/
def readingAudio (remaining budget : Nat) : State :=
  let s := airing 0 []
  s.withWs { s.ws with flash := { s.ws.flash with
    port := some (.audio 0),
    streams := s.ws.flash.streams.set 0 { Stream.reset budget with
      state := .running, list := [.phrase phrase9], remaining := remaining,
      inFlight := some { block := 1009, phrase := 9, index := 2 - remaining } } } }

/-- AudioReadsFillTheFifo: a good read, and an unreadable one; and the hypothesis on a no-response read. -/
theorem test_meets_AudioReadsFillTheFifo :
    let s := readingAudio 2 1
    s.rested ∧ s.node.sized ∧ s.ws.report.wf ∧ s.ws.flash.port = some (.audio 0) ∧ s.ws.report.faults.flashPort = false
      ∧ (s.ws.channel 0).state = .playing ∧ (s.ws.stream 0).state = .running
      ∧ (s.ws.stream 0).inFlight = some { block := 1009, phrase := 9, index := 0 } ∧ (s.ws.stream 0).current = some phrase9
      ∧ phrase9.essential = true ∧ audioOutcome (audioBlock 9 0 false) 9 0 = .good ∧ 2 ≤ (s.ws.stream 0).remaining
      ∧ audioOutcome (audioBlock 9 0 true) 9 0 = .unreadable ∧ 1 ≤ (s.ws.stream 0).budget := by decide +kernel

/-- SamplePeriodPlaysOrStarves: a sample at the head, and an empty FIFO. -/
theorem test_meets_SamplePeriodPlaysOrStarves :
    [[FifoItem.sample 0x7F 0 1, .phraseEnd 0], []].all (fun l =>
      let s := airing 0 l
      decide (s.rested ∧ s.node.sized ∧ s.ws.report.wf ∧ (s.ws.channel 0).plays = true
        ∧ (s.ws.channel 0).playingSilent = none ∧ (s.ws.channel 1).plays = false ∧ (s.ws.channel 0).fifo = l
        ∧ (s.ws.channel 0).underrunTotal < 4000 ∧ (s.ws.channel 0).underrunEpisode.getD 0 < 32000)) = true := by decide +kernel

/-- Job 5 stops at list position 2, a gap that plays. -/
def stopping : State :=
  withJob (jobOn0 .airing .airing 12 .local (.granted 900 false)) (channel0
    { playingWith [] with
      state := .stopping, position := some { position := 2, item := 3, kind := .gap, left := 100 }, stopPosition := some 2 } base)

/-- SilentEntriesUnderrunsAndStalls: the stop entry plays. -/
theorem test_meets_SilentEntriesUnderrunsAndStalls_stop :
    stopping.rested ∧ stopping.node.sized
      ∧ (stopping.ws.channel 0).playingSilent = some { position := 2, item := 3, kind := .gap, left := 100 }
      ∧ (stopping.ws.channel 0).stopsAt 2 = true
      ∧ stopping.ws.jobs.recs = [jobOn0 .airing .airing 12 .local (.granted 900 false)] := by decide +kernel

/-- SilentEntriesUnderrunsAndStalls: a silence that plays; a dry channel short of both limits. -/
theorem test_meets_SilentEntriesUnderrunsAndStalls :
    (let s := channel0 { playingWith [] with position := some { position := 2, item := 3, kind := .silence, left := 100 } } base
     s.rested ∧ (s.ws.channel 0).playingSilent = some { position := 2, item := 3, kind := .silence, left := 100 }
       ∧ (s.ws.channel 0).stopsAt 2 = false)
      ∧ (let s := airing 0 []
         s.rested ∧ s.node.sized ∧ s.ws.report.wf ∧ (s.ws.channel 0).dry = true
           ∧ s.ws.jobs.recs = [jobOn0 .airing .airing 12 .local (.granted 900 false)] ∧ (s.ws.channel 0).underrunTotal < 4001
           ∧ (s.ws.channel 0).underrunEpisode.getD 0 + (4001 - (s.ws.channel 0).underrunTotal) < 32001
           ∧ (s.ws.channel 0).underrunEpisode ≠ some 32001) := by decide +kernel

/-- SilentEntriesUnderrunsAndStalls: a dry channel whose job would be reported when it ends FETCH-STALL. -/
theorem test_meets_SilentEntriesUnderrunsAndStalls_report :
    let r := { jobOn0 .airing .airing 40 (.remote 9) (.granted 900 false) with trunk := some 1 }
    let s := withJob r (channel0 (playingWith []) base)
    s.rested ∧ s.node.sized ∧ s.ws.report.wf ∧ (s.ws.channel 0).dry = true ∧ s.ws.jobs.recs = [r] ∧ r.channel = some 0
      ∧ (s.ws.channel 0).underrunEpisode ≠ some 32001 ∧ r.ending = none ∧ s.reportable r := by decide +kernel

/-- ZoneAskIsAnswered: an ask that is granted, and one that a line fault denies. -/
theorem test_meets_ZoneAskIsAnswered :
    let f := msg .operational 20 0 (.zoneAsk 3 2 9 [12])
    let a : Ask := { node := 20, tag := 3, cls := .operational, source := .trunk 2, duration := 9 }
    (let s := rx .operational 20 0 (.zoneAsk 3 2 9 [12]) base
     s.rested ∧ headIs s f (.zoneAsk 3 2 9 [12]) ∧ s.env.onLine ∧ s.ws.room ∧ s.ws.zone 12 = some idle12 ∧ idle12.wf
       ∧ currentVerdict s.env.now idle12 20 3 = none ∧ deniedBy s.env s.ws idle12 a = none ∧ idle12.state = .idle
       ∧ 0 < s.env.part.cfg.settings.settle)
      ∧ (let z := { idle12 with fault := true }
         let s := rx .operational 20 0 (.zoneAsk 3 2 9 [12]) (zone12 z base)
         s.ws.zone 12 = some z ∧ z.wf ∧ currentVerdict s.env.now z 20 3 = none
           ∧ deniedBy s.env s.ws z a = some .fault) := by decide +kernel

/-- An ask of node 22 for its job 6. -/
def ask22 (cls : Cls) : Ask := { node := 22, tag := 6, cls := cls, source := .channel 0, duration := 9 }

/-- Node 7 with no settle time. -/
def noSettle : Env :=
  { env with part := { env.part with cfg := { config with settings := { resetSettings with settle := 0 } } } }

/-- IdleAndHoldingZonesAreGranted: HOLDING, IDLE without and with a settle time. -/
theorem test_meets_IdleAndHoldingZonesAreGranted :
    [(env, { idle12 with state := .holding, hold := some 9000 }), (noSettle, idle12), (env, idle12)].all (fun x =>
      let w := (zone12 x.2 base).ws
      decide (w.zone 12 = some x.2 ∧ x.2.wf ∧ currentVerdict x.1.now x.2 22 6 = none
        ∧ deniedBy x.1 w x.2 (ask22 .operational) = none)) = true
      ∧ noSettle.part.cfg.settings.settle = 0 ∧ 0 < env.part.cfg.settings.settle := by decide +kernel

/-- A full waiting list. -/
def sixWaiting : List Waiter :=
  [waiter21 1 .operational, waiter21 2 .operational, waiter21 3 .operational, waiter21 4 .information,
    waiter21 5 .information, waiter21 6 .information]

/-- AsksOfHeldZones: a better class, the same class on a list with a place, a full list with and without a worse entry. -/
theorem test_meets_AsksOfHeldZones :
    [(Cls.safety, ([] : List Waiter)), (.operational, [waiter21 1 .operational]), (.operational, sixWaiting),
      (.information, sixWaiting)].all (fun x =>
      let z := { speaking12 with waiting := x.2 }
      let w := (zone12 z base).ws
      decide (w.zone 12 = some z ∧ z.wf ∧ z.holder = some holder20 ∧ currentVerdict env.now z 22 6 = none
        ∧ deniedBy env w z (ask22 x.1) = none)) = true := by decide +kernel

/-- LeaveMovesTheZoneOn: nobody waits, and node 21 waits. -/
theorem test_meets_LeaveMovesTheZoneOn :
    [([] : List Waiter), [waiter21 1 .operational]].all (fun l =>
      let z := { speaking12 with waiting := l }
      let s := rx .operational 20 0 (.zoneLeave 3 [12]) (zone12 z base)
      decide (s.rested ∧ headIs s (msg .operational 20 0 (.zoneLeave 3 [12])) (.zoneLeave 3 [12]) ∧ s.env.onLine
        ∧ s.ws.zone 12 = some z ∧ z.wf ∧ z.holder = some holder20 ∧ 0 < s.env.part.cfg.settings.hold
        ∧ (∀ x ∈ l, deniedBy s.env s.ws z x.ask = none ∧ x.node ≠ s.env.part.node) ∧ s.ws.room)) = true := by decide +kernel

/-- SettleExpiryAndWaitTimersOfAZone: a settle, an expiry, and a wait. -/
theorem test_meets_SettleExpiryAndWaitTimersOfAZone :
    (let z := { speaking12 with state := .settling, settle := some 9000 }
     let s := zone12 z base
     s.rested ∧ s.ws.zone 12 = some z ∧ z.settle.isSome = true ∧ z.holder = some holder20)
      ∧ (let s := zone12 speaking12 base
         s.env.onLine ∧ s.ws.room ∧ s.ws.zone 12 = some speaking12 ∧ speaking12.wf ∧ holder20.node ≠ s.env.part.node
           ∧ speaking12.waiting = [] ∧ 0 < s.env.part.cfg.settings.hold)
      ∧ (let z := { speaking12 with waiting := [waiter21 1 .operational] }
         let s := zone12 z base
         s.rested ∧ s.env.onLine ∧ s.ws.room ∧ s.ws.zone 12 = some z ∧ z.wf
           ∧ z.waiting.find? (fun y => y.node = 21 && y.tag = 5) = some (waiter21 1 .operational)
           ∧ 21 ≠ s.env.part.node) := by decide +kernel

/-- HoldTimerReturnsTheZoneToIdle. -/
theorem test_meets_HoldTimerReturnsTheZoneToIdle :
    let z := { idle12 with state := .holding, hold := some 9000 }
    let s := zone12 z base
    s.rested ∧ s.ws.zone 12 = some z ∧ z.wf ∧ z.state = .holding ∧ s.ws.zoneOfOutput 0 = some z
      ∧ deniedBy s.env s.ws z (ask22 .operational) = none := by decide +kernel

/-- LineFaultFollowsTheInput. -/
theorem test_meets_LineFaultFollowsTheInput :
    base.rested ∧ base.ws.room ∧ (base.ws.zones.recs.map (·.zone)).Nodup := by decide +kernel

/-- SeizeAndFreeMoveTheView and ViewExpiryFreesTheEntry. -/
theorem test_meets_SeizeAndFreeMoveTheView :
    [base, held1 9 base].all (fun b =>
      decide (b.rested ∧ headIs (rx .operational 9 0 (.seize 1 8 23) b) (msg .operational 9 0 (.seize 1 8 23)) (.seize 1 8 23)
        ∧ headIs (rx .operational 9 0 (.free 1 8) b) (msg .operational 9 0 (.free 1 8)) (.free 1 8))) = true
      ∧ (held1 9 base).ws.trunk 1 = some { node := 9, tag := 5, expiry := 50000 } := by decide +kernel

/-- TrunkWaitAndBackoffTryAgain: the wait between trunk rounds, and a backoff that was no trunk conflict. -/
theorem test_meets_TrunkWaitAndBackoffTryAgain :
    (let r0 := jobOn0 .gathering .trunk 40 (.remote 9) .left
     let r := { r0 with gathering := { r0.gathering with trunkWait := some 9000, tried := [0, 1, 2, 3] } }
     let s := withJob r base
     s.rested ∧ s.env.onLine ∧ s.ws.room ∧ s.ws.liveJob 5 = some r ∧ r.gathering.phase = .trunk
       ∧ r.gathering.trunkWait.isSome = true
       ∧ [0, 1, 2, 3].find? (s.ws.candidate s.env { r.gathering with tried := [] }) = some 0)
      ∧ (let r0 := jobOn0 .gathering .backoff 40 (.remote 9) .left
         let r := { r0 with trunk := some 0, gathering := { r0.gathering with backoff := some 9000 } }
         let s := withJob r base
         s.rested ∧ s.env.onLine ∧ s.ws.room ∧ s.ws.jobs.recs = [r] ∧ r.state.inProgress = true
           ∧ r.gathering.backoff.isSome = true ∧ r.gathering.reseize = false
           ∧ r.gathering.grants = [{ zone := 40, required := true, home := .remote 9, verdict := .left }]
           ∧ s.ws.homes 40 = false ∧ s.env.homeOf 40 = some 9) := by decide +kernel

/-- Job 5 on channel 0 seizes trunk 1, its SEIZE echo due. -/
def seizing : State :=
  let r0 := jobOn0 .gathering .trunk 40 (.remote 9) .left
  echoing (.seize 1 5 15) .plain (withJob { r0 with gathering := { r0.gathering with seizing := some 1, tried := [1] } } base)

/-- WonTrunkBeginsTheZoneRound. -/
theorem test_meets_WonTrunkBeginsTheZoneRound :
    seizing.rested ∧ seizing.env.onLine ∧ seizing.ws.room
      ∧ seizing.echoDue { frame := own (.seize 1 5 15), purpose := .plain, ahead := 0 }
      ∧ seizing.ws.jobs.recs.map (fun r => (r.tag, r.state, r.gathering.seizing)) = [(5, .gathering, some 1)]
      ∧ seizing.ws.trunk 1 = none ∧ carrierOn seizing.env seizing.ws 1 = false ∧ seizing.ws.homes 40 = false
      ∧ seizing.env.homeOf 40 = some 9 := by decide +kernel

/-- Job 5 on channel 0 asks zone 40 at node 9. -/
def asking : JobRec :=
  let r := jobOn0 .gathering .zones 40 (.remote 9) .waiting
  { r with trunk := some 1, gathering := { r.gathering with gather := some 81000, answers := [(9, 17000)] } }

/-- AnswersCompleteTheRound: GRANTED and QUEUED. -/
theorem test_meets_AnswersCompleteTheRound :
    [Verdict.granted 300 true, .queued 6].all (fun v =>
      let s := rx .operational 9 7 (.zoneAnswer 5 [(40, v)]) (withJob asking base)
      decide (s.rested ∧ headIs s (msg .operational 9 7 (.zoneAnswer 5 [(40, v)])) (.zoneAnswer 5 [(40, v)])
        ∧ s.ws.jobs.recs = [asking])) = true
      ∧ asking.state = .gathering ∧ asking.gathering.phase = .zones
      ∧ asking.gathering.grants = [{ zone := 40, required := true, home := .remote 9, verdict := .waiting }] := by decide +kernel

/-- The same job in READY, its start timer running. -/
def readyJob : JobRec :=
  { asking with
    state := .readyWait,
    gathering := { asking.gathering with
      phase := .ready, gather := none, startTimer := some 9000,
      grants := [{ zone := 40, required := true, home := .remote 9, verdict := .granted 900 false }] } }

/-- FailedRoundsBackOffOrEnd: the answer timer, the gather timer, the start timer, and the second round. -/
theorem test_meets_FailedRoundsBackOffOrEnd :
    [asking, readyJob].all (fun r =>
      let s := withJob r base
      decide (s.rested ∧ s.env.onLine ∧ s.ws.room ∧ s.ws.report.wf ∧ s.ws.jobs.recs = [r] ∧ r.gathering.zoneRound = 1
        ∧ (∀ g ∈ r.gathering.grants, g.required = true ∧ g.home = .remote 9 ∧ g.wanted = true))) = true
      ∧ (∃ a ∈ asking.gathering.answers, a.1 = 9) ∧ asking.gathering.gather.isSome = true
      ∧ readyJob.gathering.phase = .ready ∧ readyJob.gathering.startTimer.isSome = true
      ∧ (let r := { asking with gathering := { asking.gathering with zoneRound := 2 } }
         r.state.inProgress = true ∧ r.ending = none ∧ r.gathering.phase = .zones ∧ r.gathering.gather.isSome = true
           ∧ (withJob r base).reportable r) := by
  decide +kernel

/-- Job 5 holds trunk 1 and wants zone 40 of node 9; node 20 holds zone 12 and node 21 waits for it. -/
def busyNode : State := withJob asking (zone12 { speaking12 with waiting := [waiter21 1 .operational] } base)

/-- ServiceResetEmptiesTheTables: the release frames have room, in ACTIVE; and none is sent while ISOLATED. -/
theorem test_meets_ServiceResetEmptiesTheTables_releases :
    busyNode.rested ∧ busyNode.env.part.state = .active ∧ busyNode.node.releases.length = 4
      ∧ (busyNode.ws.line.tx.filter (·.sending)).length + busyNode.node.releases.length ≤ txCapacity
      ∧ (busyNode.ws.zones.recs.map (·.zone)).Nodup ∧ asking.state.inProgress = true ∧ asking.trunk = some 1
      ∧ isolated.rested ∧ isolated.env.part.state = .isolated := by decide +kernel

/-- A late denial changes no timer: the answer of node 9 names its DENIED entry, and node 9's answer timer runs on (R147);
the answer to a WAITING entry stops it (R141). -/
theorem test_late_answer_changes_no_timer :
    [(GrantVerdict.denied (some .busy), [(9, 17000)]), (.waiting, [])].map (fun x =>
      let r := { asking with gathering := { asking.gathering with
        grants := [{ zone := 40, required := false, home := .remote 9, verdict := x.1 },
          { zone := 41, required := true, home := .local, verdict := .queued 1 }] } }
      let s := rx .operational 9 7 (.zoneAnswer 5 [(40, .denied .busy)]) (withJob r base)
      ((after .zoneAnswer s).ws.jobs.recs.map (·.gathering.answers)).flatten)
      = [[(9, 17000)], []] := by decide +kernel

/-- A required zone granted within the local ask completes the round: READY without a gather timer, and the optional remote
zone is asked all the same (R140, R142, R143). -/
theorem test_local_grant_completes_the_round :
    let g := { asking.gathering with
      grants := [{ zone := 12, required := true, home := .local, verdict := .left },
        { zone := 40, required := false, home := .remote 9, verdict := .left }], gather := none, answers := [] }
    let w := (withJob { asking with gathering := g } base).ws.startRound env 5
    w.jobs.recs.map (fun r => (r.gathering.phase, r.gathering.gather, r.gathering.ready, r.gathering.ask))
        = [(.ready, none, some (env.now + ms 300), some 1)]
      ∧ w.line.tx.map (fun t => (t.frame.payload, t.purpose)) = [(.zoneAsk 5 1 15 [40], .ask 1)] := by decide +kernel

/-- An essential phrase that fails in AIRING is the first ending cause: a preemption taken before the boundary ends the
job with that code, and makes no retry (R70). -/
theorem test_essential_failure_is_the_first_cause :
    let w := withJob (jobOn0 .airing .airing 12 .local (.granted 900 false)) (channel0 (playingWith [.phraseFailed 0 true]) base)
    let x := ((w.ws.channelReports w.env 0 .essentialFailed).preempt w.env 5)
    x.jobs.recs = [] ∧ x.line.tx.any (fun t => match t.frame.payload with
      | .jobReport b => b.code = .failedPhrase && b.remaining = 1
      | _ => false) = true := by decide +kernel

/-- Job 5's ready timer runs; its channel has or has not filled. -/
def readyDue (filled : Bool) : State :=
  let c : Channel := { Channel.reset with state := .filling, fifo := if filled then [.sample 0x35 0 1, .listEnd] else [] }
  let g := { readyJob.gathering with startTimer := none, ready := some 9000 }
  withJob { readyJob with gathering := g } (channel0 c base)

/-- ReadyDelayPassedStartsTheAiring: without and with the start condition. -/
theorem test_meets_ReadyDelayPassedStartsTheAiring :
    [false, true].all (fun b =>
      let s := readyDue b
      decide (s.rested ∧ s.node.sized ∧ s.ws.startCondition s.env 0 = b
        ∧ (∀ r ∈ s.ws.jobs.recs, r.state = .readyWait ∧ r.channel = some 0 ∧ r.gathering.phase = .ready
            ∧ r.gathering.ready.isSome = true ∧ (∀ g ∈ r.gathering.grants, g.isGranted = true)
            ∧ ∀ t ∈ r.trunk, carrierOn s.env s.ws t = false)
        ∧ s.ws.jobs.recs.length = 1)) = true := by decide +kernel

/-- Job 5 airs in zone 40 of node 9. -/
def airing40 (required : Bool) : JobRec :=
  let r := jobOn0 .airing .airing 40 (.remote 9) (.granted 900 false)
  { r with trunk := some 1, gathering := { r.gathering with
      grants := [{ zone := 40, required := required, home := .remote 9, verdict := .granted 900 false }] } }

/-- RevocationsReachTheJob: an optional zone, a required one PREEMPTED, and a required one lost otherwise. -/
theorem test_meets_RevocationsReachTheJob :
    [(false, Reason.expired), (true, .preempted), (true, .reset)].all (fun x =>
      let p : Payload := .zoneRevoke [{ zone := 40, tag := 5, reason := x.2 }]
      let s := rx .safety 9 7 p (withJob (airing40 x.1) (channel0 (playingWith []) base))
      decide (s.rested ∧ headIs s (msg .safety 9 7 p) p ∧ s.ws.jobs.recs = [airing40 x.1] ∧ (airing40 x.1).state = .airing
        ∧ (airing40 x.1).gathering.phase = .airing ∧ (airing40 x.1).ending = none ∧ (airing40 x.1).retries = 1
        ∧ (∀ g ∈ (airing40 x.1).gathering.grants, g.wanted = true ∧ g.home ≠ .local ∧ g.required = x.1))) = true := by
  decide +kernel

/-- A home that answers the airing job with QUEUED or DENIED-TRUNK, and one that answers DENIED-TRUNK in READY: the
premises of RevocationsReachTheJob and AnswersCompleteTheRound, and what becomes of the job. -/
theorem test_meets_answers_to_granted_entries :
    [(airing40 true, Verdict.queued 1, ([] : List GatherPhase)), (airing40 true, .denied .trunk, []),
      (readyJob, .denied .trunk, [.backoff])].all (fun x =>
      let p : Payload := .zoneAnswer 5 [(40, x.2.1)]
      let s := rx .operational 9 7 p (withJob x.1 (channel0 (playingWith []) base))
      decide (s.rested ∧ s.env.onLine ∧ s.ws.room ∧ headIs s (msg .operational 9 7 p) p ∧ s.ws.jobs.recs = [x.1]
        ∧ x.1.ending = none ∧ x.1.gathering.zoneRound = 1 ∧ x.1.trunk = some 1
        ∧ (∀ g ∈ x.1.gathering.grants, g.required = true ∧ g.isGranted = true ∧ g.home ≠ .local)
        ∧ (after .zoneAnswer s).ws.jobs.recs.map (·.gathering.phase) = x.2.2)) = true := by decide +kernel

/-- ReadingsAndSilenceReachTheLevels. -/
theorem test_meets_ReadingsAndSilenceReachTheLevels :
    base.rested ∧ base.ws.line.tx.length + 8 ≤ txCapacity ∧ base.env.part.state ≠ .start ∧ (base.ws.levels.map (·.zone)).Nodup := by decide +kernel

/-- Two sensors that fail in one reading cycle are two changes of the fault set (R180, R182). -/
theorem test_two_sensors_are_two_changes :
    let t := after (.ambientReadingCycle [some 0, some 255, none, none, none, none, none, none]) base
    (t.ws.report.seq, t.ws.report.faults.sensor, t.ws.line.tx.length)
      = (base.ws.report.seq + 2, [12, 13], base.ws.line.tx.length + 2) := by decide +kernel

/-- GoodReadingsMoveAnOpenEstimate: TRACKING, AWAITING and FAULT under an OPEN hold, and a HELD entry. -/
theorem test_meets_GoodReadingsMoveAnOpenEstimate :
    let l := buildLevel 0 12 0 builtInLevels
    l.hold = .opened ∧ l.sensor = .awaiting
      ∧ ({ l with sensor := .tracking, estimate := some 320 } : LevelEntry).estimate = some 320
      ∧ ({ l with sensor := .tracking, estimate := some 1920 } : LevelEntry).sensor = .tracking
      ∧ ({ l with sensor := .fault } : LevelEntry).hold = .opened ∧ ({ l with hold := .held } : LevelEntry).hold ≠ .opened := by
  decide

/-- Zone 12's level entry in RELEASING with a default pending, in FAULT. -/
def releasing12 : LevelEntry :=
  { buildLevel 0 12 0 builtInLevels with
    sensor := .fault, hold := .releasing, release := some 9000, pendingDefault := true, estimate := some 1142 }

/-- ReleaseAppliesThePendingDefault. -/
theorem test_meets_ReleaseAppliesThePendingDefault :
    let s := base.withWs { base.ws with levels := base.ws.levels.set 0 releasing12 }
    s.rested ∧ s.ws.level 12 = some releasing12 ∧ releasing12.release.isSome = true ∧ releasing12.pendingDefault = true
      ∧ releasing12.sensor = .fault ∧ releasing12.hold = .releasing := by decide +kernel

/-- AttenuationInThreeStages: consistent settings, and the entry of a zone. -/
theorem test_meets_AttenuationInThreeStages :
    levelsConsistent builtInLevels = true
      ∧ base.ws.level 13 = some { buildLevel 0 13 1 builtInLevels with attenuation := 127 } := by decide +kernel

/-- FramesDecodeAsBuilt: a frame in range. -/
theorem test_meets_FramesDecodeAsBuilt :
    Frame.inRange { cls := .safety, source := 63, dest := 63, alt := true, payload := .seize 3 255 250 } := by
  refine ⟨by decide, by decide, by decide, ?_⟩
  show 3 ≤ 3 ∧ 255 < 256 ∧ 250 ≤ 250
  decide

/-- The frame statements: a command that gives a next state, from a state whose counters are in range. -/
theorem test_meets_CommandsLeave :
    exec .startReset base = .next (after .startReset base) ∧ base.ws.report.wf := ⟨rfl, by decide +kernel⟩

/-- A zone with a holder and two waiting entries of one class keeps the laws; out of arrival order, or with a pair twice, or
with a timer left over in IDLE, it does not. -/
theorem test_zone_laws :
    let z := { speaking12 with waiting := [waiter21 1 .operational, waiter21 2 .operational] }
    ((z.wf ∧ z.timersExact) ∧ z.queueLaws 2)
      ∧ ¬ ({ z with waiting := z.waiting.reverse } : ZoneRec).queueLaws 2
      ∧ ¬ ({ z with waiting := [waiter21 1 .safety, { waiter21 2 .operational with tag := 5 }] } : ZoneRec).queueLaws 2
      ∧ ¬ ({ idle12 with hold := some 9 } : ZoneRec).timersExact := by decide +kernel

/-- The invariants hold together in a state of work, from which a step goes on. -/
theorem test_meets_StepKeeps :
    let s : State := { (airing 1 [.listEnd]) with pending := [.samplePeriod [false, false, false, false]] }
    s.env.clock.wf ∧ s.ws.line.queueWf ∧ s.ws.line.countsWf ∧ s.ws.report.wf ∧ s.ws.zones.wf ∧ s.ws.jobs.wf
      ∧ (∀ l ∈ s.ws.levels, l.wf) ∧ s.node.sized ∧ (∀ f ∈ s.ws.line.rx, f.timeInRange) := by
  refine ⟨by decide +kernel, by decide +kernel, by decide +kernel, by decide +kernel, by decide +kernel, by decide +kernel,
    by decide +kernel, by decide +kernel, ?_⟩
  have empty : (airing 1 [.listEnd]).ws.line.rx = [] := by decide +kernel
  intro f hf
  rw [show _ = _ from empty] at hf
  exact absurd hf List.not_mem_nil

/-- No two slots of an empty table share a call id. -/
theorem test_meets_idsUnique : base.env.idsUnique := by
  intro i j c d h
  have none_at : base.env.callAt i = none := by
    show ((List.replicate 32 (none : Option CallRec))[i]?).join = none
    rw [List.getElem?_replicate]
    split <;> rfl
  rw [none_at] at h
  exact absurd h (by simp)

end Sys2Proof.Tests
end

section
/-! The announced delay minutes and the phrases DELAY-MIN speaks for them (R38, R41): what each function answers, branch
by branch, and the statement assembled from these. -/

namespace Sys2Proof.Proofs.DelayMinutes

open Sys2Proof Sys2Proof.Machine

/-! ### The announced minutes (R38) -/

theorem announcedMinutes_of_nonpos {d : Option Int} (h : clampedDelay d ≤ 0) : announcedMinutes d = 0 :=
  if_pos h

theorem announcedMinutes_of_pos {d : Option Int} (h : 0 < clampedDelay d) :
    announcedMinutes d = min 121 (((clampedDelay d).toNat + 59) / 60) :=
  if_neg (Int.not_le.mpr h)

/-- Up to two hours, M is the delay in minutes rounded up: the one M whose minutes reach the delay and whose predecessor's
do not. -/
theorem announcedMinutes_rounds_up {d : Option Int} (pos : 0 < clampedDelay d) (le : clampedDelay d ≤ 7200) :
    ((announcedMinutes d : Int) - 1) * 60 < clampedDelay d ∧ clampedDelay d ≤ (announcedMinutes d : Int) * 60 := by
  rw [announcedMinutes_of_pos pos]
  omega

theorem announcedMinutes_of_more_than_two_hours {d : Option Int} (h : 7200 < clampedDelay d) :
    announcedMinutes d = 121 := by
  rw [announcedMinutes_of_pos (by omega)]
  omega

theorem announcedMinutes_le (d : Option Int) : announcedMinutes d ≤ 121 := by
  rcases le_or_gt (clampedDelay d) 0 with nonpos | pos
  · simp [announcedMinutes_of_nonpos nonpos]
  · rw [announcedMinutes_of_pos pos]
    exact Nat.min_le_left ..

theorem announcedMinutes_pos {d : Option Int} (h : 0 < clampedDelay d) : 0 < announcedMinutes d := by
  rw [announcedMinutes_of_pos h]
  omega

/-! ### The phrases of DELAY-MIN (R41) -/

theorem delayPhrases_of_plural {m : Nat} (one : m ≠ 1) (most : m ≠ 121) : delayPhrases m = [16 + m, 140] :=
  (if_neg most).trans (if_neg one)

/-- "More than two hours" is spoken alone; every other value takes a number and a unit. -/
theorem delayPhrases_length (m : Nat) : (delayPhrases m).length = if m = 121 then 1 else 2 := by
  by_cases most : m = 121
  · subst most
    rfl
  by_cases one : m = 1
  · subst one
    rfl
  · simp [delayPhrases_of_plural one most, most]

/-- Settles O21: the first half by the sign of the clamped delay and its bound of two hours, the second by the value
of M. -/
theorem delayMinutesAndTheirPhrases : Obligations.DelayMinutesAndTheirPhrases := by
  refine ⟨fun d => ⟨announcedMinutes_of_nonpos, announcedMinutes_rounds_up, announcedMinutes_of_more_than_two_hours,
      announcedMinutes_le d, announcedMinutes_pos⟩,
    delayPhrases_of_plural (by decide) (by decide), rfl, rfl,
    fun m two le => delayPhrases_of_plural (by omega) (by omega), fun d => ?_⟩
  rw [delayPhrases_length]
  split <;> decide

end Sys2Proof.Proofs.DelayMinutes
end

section
/-! Decoding of a companded sample (R96, Table 11-19), and the sample period in which a playing channel takes one (R95):
the decoder's value on the three parts of a byte, what the period of a channel with a sample at its head does, and that
the work it hands on leaves the outputs as they are. -/

namespace Sys2Proof.Proofs.SampleDecoding

open Sys2Proof Sys2Proof.Machine

/-! ### The decoder (R96) -/

/-- The sample of a sign, a segment and a step: bit 7, bits 6 to 4 and bits 3 to 0 (Table 11-19). -/
def sampleOf (sign : Bool) (segment step : Nat) : Byte :=
  BitVec.ofNat 8 ((if sign then 128 else 0) + 16 * segment + step)

theorem toNat_sampleOf (sign : Bool) {segment step : Nat} (hsegment : segment < 8) (hstep : step < 16) :
    (sampleOf sign segment step).toNat = (if sign then 128 else 0) + 16 * segment + step := by
  rw [sampleOf, BitVec.toNat_ofNat]
  exact Nat.mod_eq_of_lt (by split <;> omega)

theorem magnitude_sampleOf (sign : Bool) {segment step : Nat} (hsegment : segment < 8) (hstep : step < 16) :
    magnitude (sampleOf sign segment step) = (2 * step + 33) * 2 ^ segment - 33 := by
  have low : (sampleOf sign segment step).toNat % 16 = step := by
    rw [toNat_sampleOf sign hsegment hstep]
    split <;> omega
  have middle : (sampleOf sign segment step).toNat / 16 % 8 = segment := by
    rw [toNat_sampleOf sign hsegment hstep]
    split <;> omega
  rw [magnitude, low, middle]

theorem decodeSample_sampleOf (sign : Bool) {segment step : Nat} (hsegment : segment < 8) (hstep : step < 16) :
    decodeSample (sampleOf sign segment step) =
      if sign then -(((2 * step + 33) * 2 ^ segment - 33 : Nat) : Int)
      else (((2 * step + 33) * 2 ^ segment - 33 : Nat) : Int) := by
  have negative : 128 ≤ (sampleOf sign segment step).toNat ↔ sign = true := by
    rw [toNat_sampleOf sign hsegment hstep]
    cases sign <;> simp <;> omega
  simp only [decodeSample, magnitude_sampleOf sign hsegment hstep, negative]

theorem natAbs_decodeSample (b : Byte) : (decodeSample b).natAbs = magnitude b := by
  unfold decodeSample
  split <;> simp

/-- The largest magnitude is that of segment 7 and step 15. -/
theorem magnitude_le (b : Byte) : magnitude b ≤ 8031 := by
  have hstep : 2 * (b.toNat % 16) + 33 ≤ 63 := by omega
  have hsegment : 2 ^ (b.toNat / 16 % 8) ≤ 2 ^ 7 := Nat.pow_le_pow_right (by decide) (by omega)
  exact Nat.sub_le_sub_right (Nat.mul_le_mul hstep hsegment) 33

/-! ### Reading a channel after a change -/

theorem channel_modChannel_same {w : Works} {n : Nat} (f : Channel → Channel) (h : n < w.channels.length) :
    (w.modChannel n f).channel n = f (w.channel n) := by
  simp [Works.channel, Works.modChannel, h]

theorem channel_modChannel_of_ne {w : Works} {n m : Nat} (f : Channel → Channel) (h : n ≠ m) :
    (w.modChannel n f).channel m = w.channel m := by
  simp [Works.channel, Works.modChannel, h]

/-- A change that keeps the output of whatever channel it meets keeps the output of every channel. -/
theorem output_modChannel {w : Works} (n m : Nat) {f : Channel → Channel} (keeps : ∀ c, (f c).output = c.output) :
    ((w.modChannel n f).channel m).output = (w.channel m).output := by
  by_cases h : n = m
  · subst h
    by_cases inside : n < w.channels.length
    · rw [channel_modChannel_same f inside, keeps]
    · simp [Works.channel, Works.modChannel, inside]
  · rw [channel_modChannel_of_ne f h]

theorem channel_congr {w v : Works} (h : w.channels = v.channels) (n : Nat) : w.channel n = v.channel n := by
  simp [Works.channel, h]

/-! ### The start test and the flash arbiter (R84, R93) -/

/-- The start condition is one of FILLING, so a playing channel does not meet it. -/
theorem startCondition_of_plays {w : Works} {n : Nat} (e : Env) (plays : (w.channel n).plays = true) :
    w.startCondition e n = false := by
  have state : (w.channel n).state = .playing ∨ (w.channel n).state = .stopping := by simpa [Channel.plays] using plays
  rcases state with h | h <;> simp [Works.startCondition, h]

/-- The start test of a playing channel reports nothing: it takes back a mark left standing. -/
theorem testStart_of_plays {w : Works} {n : Nat} (e : Env) (plays : (w.channel n).plays = true) :
    w.testStart e n =
      if (w.channel n).startHeld then w.modChannel n (fun c => { c with startHeld := false }) else w := by
  cases mark : (w.channel n).startHeld <;> simp [Works.testStart, startCondition_of_plays e plays, mark]

theorem testStart_agenda_of_plays {w : Works} {n : Nat} (e : Env) (plays : (w.channel n).plays = true) :
    (w.testStart e n).agenda = w.agenda := by
  rw [testStart_of_plays e plays]
  split <;> rfl

theorem output_testStart_of_plays {w : Works} {n : Nat} (e : Env) (m : Nat) (plays : (w.channel n).plays = true) :
    ((w.testStart e n).channel m).output = (w.channel m).output := by
  rw [testStart_of_plays e plays]
  split
  · exact output_modChannel n m (fun _ => rfl)
  · rfl

@[simp] theorem issueAudio_channels (n : Nat) (w : Works) : (w.issueAudio n).channels = w.channels := by
  unfold Works.issueAudio
  split <;> rfl

@[simp] theorem issueAudio_agenda (n : Nat) (w : Works) : (w.issueAudio n).agenda = w.agenda := by
  unfold Works.issueAudio
  split <;> rfl

@[simp] theorem lookAtFlash_channels (e : Env) (w : Works) : (w.lookAtFlash e).channels = w.channels := by
  unfold Works.lookAtFlash
  split
  · rfl
  · split
    · exact issueAudio_channels _ w
    · split <;> rfl

@[simp] theorem lookAtFlash_agenda (e : Env) (w : Works) : (w.lookAtFlash e).agenda = w.agenda := by
  unfold Works.lookAtFlash
  split
  · rfl
  · split
    · exact issueAudio_agenda _ w
    · split <;> rfl

/-- With the look of the arbiter alone left to do, settling leaves the channels. -/
theorem settle_flashLook_channels {w : Works} (e : Env) (fuel : Nat) (h : w.agenda = [.flashLook]) :
    (settle e (fuel + 1) w).channels = w.channels := by
  rw [settle_cons e fuel w .flashLook [] h, settle_of_empty e fuel _ (lookAtFlash_agenda e _)]
  exact lookAtFlash_channels e _

/-- The work a playing channel hands on when its FIFO has changed, the start test and the look of the arbiter, leaves
every output as it is. -/
theorem output_settle_fetchChanged {w : Works} {n : Nat} (e : Env) (m : Nat) (rested : w.agenda = [])
    (plays : (w.channel n).plays = true) :
    ((settle e settleFuel (w.fetchChanged n)).channel m).output = (w.channel m).output := by
  have handed : (w.fetchChanged n).agenda = [.testStart n, .flashLook] := by simp [Works.fetchChanged, rested]
  have tested : settle e settleFuel (w.fetchChanged n) =
      settle e (65534 + 1) ({ w with agenda := [.flashLook] }.testStart e n) := settle_cons e 65535 _ _ _ handed
  have left := testStart_agenda_of_plays (w := { w with agenda := [.flashLook] }) e plays
  rw [tested, channel_congr (settle_flashLook_channels e 65534 left) m]
  exact output_testStart_of_plays e m plays

/-! ### The sample period (R95) -/

/-- What a channel does with the sample it takes from the head of its FIFO (R95, R99). -/
def playSample (b : Byte) (rest : List FifoItem) (c : Channel) : Channel :=
  { c with fifo := rest, output := decodeSample b, underrunEpisode := none }

theorem playSample_plays (b : Byte) (rest : List FifoItem) (c : Channel) : (playSample b rest c).plays = c.plays := rfl

theorem period_of_not_plays {w : Works} {n : Nat} (h : (w.channel n).plays = false) : w.period n = w := by
  simp [Works.period, h]

/-- With no gap or silence playing, the entry at the playout position is a phrase. -/
theorem kind_of_playingSilent_none {c : Channel} {q : Playing} (plays : c.plays = true) (silent : c.playingSilent = none)
    (position : c.position = some q) : q.kind = .phrase := by
  by_contra other
  simp [Channel.playingSilent, position, plays, other] at silent

/-- A playing channel with a sample at its head takes it in its period, unless a gap or silence plays. -/
theorem period_of_sample {w : Works} {n : Nat} {b : Byte} {i p : Nat} {rest : List FifoItem}
    (plays : (w.channel n).plays = true) (silent : (w.channel n).playingSilent = none)
    (head : (w.channel n).fifo = .sample b i p :: rest) :
    w.period n = (w.modChannel n (playSample b rest)).fetchChanged n := by
  simp only [Works.period, plays, if_true, Works.takeHead]
  cases position : (w.channel n).position with
  | none =>
    simp only [head]
    rfl
  | some q =>
    obtain ⟨place, item, kind, left⟩ := q
    obtain rfl : kind = .phrase := kind_of_playingSilent_none plays silent position
    simp only [head]
    rfl

/-- When only channel `n` plays, SAMPLE_PERIOD is the period of `n`, whichever of the two it is. -/
theorem samplePeriod_ws_of_alone (carrier : List Bool) {d : Node} {n : Nat} (two : n < 2)
    (alone : (d.ws.channel (1 - n)).plays = false) (apart : (d.ws.period n).channel (1 - n) = d.ws.channel (1 - n)) :
    (samplePeriod carrier d).ws = d.ws.period n := by
  obtain rfl | rfl : n = 0 ∨ n = 1 := by omega
  · exact period_of_not_plays (apart ▸ alone)
  · exact congrArg (Works.period 1) (period_of_not_plays alone)

/-- The decoded value of the sample taken in a period is the channel's output after the command. -/
theorem samplePeriod_output {s : State} {n : Nat} (carrier : List Bool) {b : Byte} {i p : Nat} {rest : List FifoItem}
    (rested : s.rested) (sized : s.node.sized) (two : n < 2) (plays : (s.ws.channel n).plays = true)
    (silent : (s.ws.channel n).playingSilent = none) (alone : (s.ws.channel (1 - n)).plays = false)
    (head : (s.ws.channel n).fifo = .sample b i p :: rest) :
    ∃ t, exec (.samplePeriod carrier) s = .next t ∧ (t.ws.channel n).output = decodeSample b := by
  obtain ⟨-, -, -, -, channels, -, -⟩ := sized
  have taken : (s.ws.modChannel n (playSample b rest)).channel n = playSample b rest (s.ws.channel n) :=
    channel_modChannel_same _ (channels ▸ two)
  have period := period_of_sample plays silent head
  have ws : (samplePeriod carrier s.node).ws = (s.ws.modChannel n (playSample b rest)).fetchChanged n := by
    rw [samplePeriod_ws_of_alone carrier two alone (by
      rw [period]
      exact channel_modChannel_of_ne _ (by omega)), period]
  refine ⟨_, run_eq (samplePeriod carrier) s, ?_⟩
  dsimp only [State.ws]
  rw [Node.settled_ws, ws]
  calc _ = ((s.ws.modChannel n (playSample b rest)).channel n).output :=
        output_settle_fetchChanged _ n rested (by rw [taken, playSample_plays, plays])
    _ = decodeSample b := by rw [taken, playSample]

/-- Settles O28: the decoder by the three parts of the byte, and its value at the output through the period of the one
playing channel. -/
theorem sampleDecoding : Obligations.SampleDecoding := by
  refine ⟨fun sign _ _ hsegment hstep => decodeSample_sampleOf sign hsegment hstep,
    fun b => (natAbs_decodeSample b).trans_le (magnitude_le b), by decide, by decide, by decide, ?_⟩
  intro s n carrier b i p rest rested sized two plays silent alone head
  exact samplePeriod_output carrier rested sized two plays silent alone head

end Sys2Proof.Proofs.SampleDecoding
end

section
/-! The Zone Arbiter on zones without a holder: what an ask of an IDLE or HOLDING zone answers and leaves (R112, R113,
R117, R126), and what the hold timer's expiry leaves (R121).  Writing a zone record touches the record and the level
entries alone, which is said once, for every field. -/

namespace Sys2Proof.Proofs.ZoneGrants

open Sys2Proof Sys2Proof.Machine

/-! ### Writing a zone record (R107) -/

/-- A report of AMP-ON reaches the level entries alone. -/
theorem reportAmp_eq (e : Env) (zone : Nat) (before after : Bool) (w : Works) :
    ∃ ls, w.reportAmp e zone before after = { w with levels := ls } := by
  unfold Works.reportAmp
  split
  · exact ⟨w.levels, rfl⟩
  · split
    · exact ⟨_, rfl⟩
    · exact ⟨_, rfl⟩

/-- A written zone record takes the place of its zone's, and besides it only level entries change. -/
theorem setZone_eq (e : Env) (z : ZoneRec) (w : Works) :
    ∃ ls, w.setZone e z =
      { w with zones := { w.zones with recs := w.zones.recs.map (fun o => if o.zone = z.zone then z else o) }
               levels := ls } := by
  unfold Works.setZone
  exact reportAmp_eq e z.zone _ z.state.ampOn _

@[simp] theorem setZone_recs (e : Env) (z : ZoneRec) (w : Works) :
    (w.setZone e z).zones.recs = w.zones.recs.map (fun o => if o.zone = z.zone then z else o) := by
  obtain ⟨ls, written⟩ := setZone_eq e z w
  rw [written]

@[simp] theorem setZone_jobs (e : Env) (z : ZoneRec) (w : Works) : (w.setZone e z).jobs = w.jobs := by
  obtain ⟨ls, written⟩ := setZone_eq e z w
  rw [written]

@[simp] theorem setZone_line (e : Env) (z : ZoneRec) (w : Works) : (w.setZone e z).line = w.line := by
  obtain ⟨ls, written⟩ := setZone_eq e z w
  rw [written]

@[simp] theorem setZone_trunks (e : Env) (z : ZoneRec) (w : Works) : (w.setZone e z).trunks = w.trunks := by
  obtain ⟨ls, written⟩ := setZone_eq e z w
  rw [written]

@[simp] theorem setZone_agenda (e : Env) (z : ZoneRec) (w : Works) : (w.setZone e z).agenda = w.agenda := by
  obtain ⟨ls, written⟩ := setZone_eq e z w
  rw [written]

/-- Looking up any zone after a record has been written. -/
theorem zone_setZone (e : Env) (z : ZoneRec) (w : Works) (zone : Nat) :
    (w.setZone e z).zone zone = (w.zone zone).map (fun o => if o.zone = z.zone then z else o) := by
  have number : (fun o : ZoneRec => decide (o.zone = zone)) ∘ (fun o => if o.zone = z.zone then z else o)
      = fun o => decide (o.zone = zone) := by
    funext o
    by_cases h : o.zone = z.zone <;> simp [h]
  simp only [Works.zone, setZone_recs, List.find?_map, number]

/-- The written record is the one found at its zone. -/
theorem zone_setZone_same {w : Works} {z o : ZoneRec} (e : Env) (here : w.zone z.zone = some o) :
    (w.setZone e z).zone z.zone = some z := by
  simp [zone_setZone, here, (w.zone_mem z.zone o here).2]

/-- Another zone's record stands as it stood. -/
theorem zone_setZone_of_ne {w : Works} {z : ZoneRec} {other : Nat} (e : Env) (ne : other ≠ z.zone) :
    (w.setZone e z).zone other = w.zone other := by
  rw [zone_setZone]
  cases found : w.zone other with
  | none => rfl
  | some o => simp [(w.zone_mem other o found).2, ne]

/-! ### A zone that speaks (R117, R126) -/

/-- The attenuation in force after it was asked for a class is the one of that class. -/
theorem attenuation_of_level_askLevel {w : Works} {zone : Nat} {c : Cls} {l : LevelEntry}
    (found : (w.askLevel zone c).level zone = some l) : l.attenuation = l.attenuationFor c := by
  have here : l.zone = zone := by simpa using List.find?_some found
  obtain ⟨o, -, rfl⟩ := List.mem_map.mp (List.mem_of_find?_eq_some found)
  by_cases same : o.zone = zone
  · rw [if_pos same]
    rfl
  · exact absurd here (by simp [same])

theorem speak_of_holder {w : Works} {z : ZoneRec} {h : Holder} (e : Env) (held : z.holder = some h) :
    w.speak e z =
      (w.setZone e { z with state := .speaking, settle := none, hold := none }).askLevel z.zone h.cls := by
  simp [Works.speak, held]

/-- A zone that speaks for its holder is in SPEAKING without timers, at the attenuation of the holder's class. -/
theorem speak_speaks {w : Works} {z o : ZoneRec} {h : Holder} (e : Env) (here : w.zone z.zone = some o)
    (held : z.holder = some h) :
    (w.speak e z).zone z.zone = some { z with state := .speaking, settle := none, hold := none }
      ∧ ∀ l, (w.speak e z).level z.zone = some l → l.attenuation = l.attenuationFor h.cls := by
  rw [speak_of_holder e held]
  exact ⟨zone_setZone_same (z := { z with state := .speaking, settle := none, hold := none }) e here,
    fun _ => attenuation_of_level_askLevel⟩

/-! ### An ask of a zone without a holder (R112, R113) -/

/-- Table 6-3 for a zone in HOLDING: the ask is granted without a settle, and the zone speaks (R113). -/
theorem askRecord_of_holding {e : Env} {w : Works} {z : ZoneRec} {a : Ask}
    (new : currentVerdict e.now z a.node a.tag = none) (allowed : deniedBy e w z a = none) (state : z.state = .holding) :
    w.askRecord e z a = (w.speak e { z with holder := some (holderOf e.now a) }, .granted 0 z.fault, []) := by
  simp [Works.askRecord, new, allowed, state]

/-- Table 6-3 for a zone in IDLE without a settle time: granted, and the zone speaks (R112). -/
theorem askRecord_of_idle_at_once {e : Env} {w : Works} {z : ZoneRec} {a : Ask}
    (new : currentVerdict e.now z a.node a.tag = none) (allowed : deniedBy e w z a = none) (state : z.state = .idle)
    (settle : e.part.cfg.settings.settle = 0) :
    w.askRecord e z a = (w.speak e { z with holder := some (holderOf e.now a) }, .granted 0 z.fault, []) := by
  simp [Works.askRecord, new, allowed, state, settle]

/-- Table 6-3 for a zone in IDLE with a settle time: granted with it as the ready delay, and the zone settles (R112). -/
theorem askRecord_of_idle_settling {e : Env} {w : Works} {z : ZoneRec} {a : Ask}
    (new : currentVerdict e.now z a.node a.tag = none) (allowed : deniedBy e w z a = none) (state : z.state = .idle)
    (settle : 0 < e.part.cfg.settings.settle) :
    w.askRecord e z a =
      (w.setZone e { z with holder := some (holderOf e.now a), state := .settling
                            settle := some (e.now + ms e.part.cfg.settings.settle) },
        .granted e.part.cfg.settings.settle z.fault, []) := by
  simp [Works.askRecord, new, allowed, state, Nat.ne_of_gt settle]

/-- The ready delay of an ask that finds the zone IDLE is the settle time, whether 0 or not. -/
theorem askRecord_verdict_of_idle {e : Env} {w : Works} {z : ZoneRec} {a : Ask}
    (new : currentVerdict e.now z a.node a.tag = none) (allowed : deniedBy e w z a = none) (state : z.state = .idle) :
    (w.askRecord e z a).2.1 = .granted e.part.cfg.settings.settle z.fault := by
  rcases Nat.eq_zero_or_pos e.part.cfg.settings.settle with settle | settle
  · rw [askRecord_of_idle_at_once new allowed state settle, settle]
  · rw [askRecord_of_idle_settling new allowed state settle]

/-- Settles O33, by the three rows of Table 6-3 for a zone without a holder and what a zone that speaks shows. -/
theorem idleAndHoldingZonesAreGranted : Obligations.IdleAndHoldingZonesAreGranted := by
  intro e w z a here _ new allowed holder settle r speaks
  have spoken := speak_speaks (z := { z with holder := some holder }) e here rfl
  have at_once (answer : r = (w.speak e { z with holder := some holder }, .granted 0 z.fault, [])) :
      r.2 = (.granted 0 z.fault, []) ∧ speaks := by
    refine ⟨congrArg Prod.snd answer, ?_⟩
    simp only [speaks, answer]
    exact spoken
  refine ⟨fun state => ?holding, fun state immediate => ?idleAtOnce, fun state delayed => ?idleSettling⟩
  case holding => exact at_once (askRecord_of_holding new allowed state)
  case idleAtOnce => exact at_once (askRecord_of_idle_at_once new allowed state immediate)
  case idleSettling =>
    have answer : r = _ := askRecord_of_idle_settling new allowed state delayed
    rw [answer]
    exact ⟨rfl, zone_setZone_same (z := { z with holder := _, state := _, settle := _ }) e here⟩

/-! ### The hold timer (R121) -/

/-- A zone in HOLDING has neither holder nor waiting entries, and its hold timer runs (Table 6-2). -/
theorem free_of_holding {z : ZoneRec} (wf : z.wf) (state : z.state = .holding) :
    z.holder = none ∧ z.waiting = [] ∧ z.hold.isSome = true := by
  obtain ⟨holds, -, timer, queue, -⟩ := wf
  have free : z.holder = none := by simpa [state] using holds
  exact ⟨free, queue free, timer state⟩

/-- Without holder and waiting entries nobody holds a verdict of the zone. -/
theorem currentVerdict_of_free {z : ZoneRec} (now : Instant) (node tag : Nat) (holder : z.holder = none)
    (waiting : z.waiting = []) : currentVerdict now z node tag = none := by
  simp [currentVerdict, holder, waiting]

/-- Steps 2 to 5 of Table 6-3 read the trunk view and the record's line-fault flag, and nothing else of works and record. -/
theorem deniedBy_congr {w v : Works} {z y : ZoneRec} (e : Env) (a : Ask) (trunks : v.trunks = w.trunks)
    (fault : y.fault = z.fault) : deniedBy e v y a = deniedBy e w z a := by
  have view : v.trunk = w.trunk := by
    funext t
    simp only [Works.trunk, trunks]
  unfold deniedBy
  rw [view, fault]

/-- The hold timer's expiry writes the record back in IDLE. -/
theorem holdExpires_of_holding {w : Works} {z : ZoneRec} {zone : Nat} (e : Env) (here : w.zone zone = some z)
    (state : z.state = .holding) (timer : z.hold.isSome = true) :
    w.holdExpires e zone = w.setZone e { z with state := .idle, hold := none } := by
  simp [Works.holdExpires, here, state, timer]

/-- HOLD_TIMER_EXPIRY on a zone in HOLDING: the record is written back in IDLE, and no work is left over. -/
theorem exec_holdTimerExpiry_of_holding {s : State} {z : ZoneRec} {zone : Nat} (rested : s.rested)
    (here : s.ws.zone zone = some z) (state : z.state = .holding) (timer : z.hold.isSome = true) :
    exec (.holdTimerExpiry zone) s
      = .next (s.withWs (s.ws.setZone s.env { z with state := .idle, hold := none })) := by
  have effect : onWorks (fun e w => w.holdExpires e zone) s.node
      = { s.node with ws := s.ws.setZone s.env { z with state := .idle, hold := none } } := by
    simp only [onWorks, holdExpires_of_holding s.env here state timer]
  calc exec (.holdTimerExpiry zone) s = run (onWorks (fun e w => w.holdExpires e zone)) s := rfl
    _ = _ := by
      rw [run_of_empty _ s (by rw [effect, setZone_agenda]; exact rested), effect]
      rfl

/-- An output driven by a zone in IDLE has its AMP-ON line off (R107). -/
theorem ampOnLine_of_idle {w : Works} {z : ZoneRec} {output : Nat} (drives : w.zoneOfOutput output = some z)
    (state : z.state = .idle) : ampOnLine w output = false := by
  simp [ampOnLine, drives, state, ZoneState.ampOn]

/-- Settles O37: the expiry writes the one record, and an ask meets HOLDING before it and IDLE after it, with the same
tests of Table 6-3 passed. -/
theorem holdTimerReturnsTheZoneToIdle : Obligations.HoldTimerReturnsTheZoneToIdle := by
  intro s zone z rested here wf state
  obtain ⟨-, rfl⟩ := s.ws.zone_mem zone z here
  obtain ⟨holder, waiting, timer⟩ := free_of_holding wf state
  refine ⟨_, exec_holdTimerExpiry_of_holding rested here state timer, ?_, ?_, ?_, rfl, ?_, ?_, ?_⟩
  · exact zone_setZone_same (z := { z with state := .idle, hold := none }) s.env here
  · exact fun _ _ drives => ampOnLine_of_idle drives rfl
  · exact fun _ ne => zone_setZone_of_ne (z := { z with state := .idle, hold := none }) s.env ne
  · exact setZone_jobs s.env _ s.ws
  · exact setZone_line s.env _ s.ws
  · intro a allowed
    refine ⟨congrArg (·.2.1) (askRecord_of_holding (currentVerdict_of_free _ _ _ holder waiting) allowed state), ?_⟩
    refine askRecord_verdict_of_idle (currentVerdict_of_free _ _ _ holder waiting) ?_ rfl
    exact (deniedBy_congr s.env a (setZone_trunks s.env _ s.ws) rfl).trans allowed

end Sys2Proof.Proofs.ZoneGrants
end

section
/-! Level Control: what a reading does to a level entry in each sensor state and hold (R154, R157 to R159), the end of a
hold with a default pending (R156, R160), and the attenuation for a class (R162). -/

namespace Sys2Proof.Proofs.LevelControl

open Sys2Proof Sys2Proof.Machine

/-! ### The step of the estimate (R157) -/

/-- An eighth, truncated toward zero, lies between 0 and the whole. -/
theorem eighth_between (d : Int) : min 0 d ≤ Int.tdiv d 8 ∧ Int.tdiv d 8 ≤ max 0 d := by
  rcases le_total 0 d with up | down
  · rw [Int.tdiv_eq_ediv_of_nonneg up]
    omega
  · have mirror : Int.tdiv d 8 = -(-d / 8) := by
      rw [← Int.tdiv_eq_ediv_of_nonneg (Int.neg_nonneg_of_nonpos down), Int.neg_tdiv, neg_neg]
    omega

/-- The estimate after a step, as an integer: the step never leads below 0. -/
theorem smoothed_cast (a r : Nat) : (smoothed a r : Int) = a + Int.tdiv (8 * (r : Int) - a) 8 := by
  have step := eighth_between (8 * (r : Int) - a)
  unfold smoothed
  push_cast
  omega

/-- Each step ends between the old estimate and eight times the new reading. -/
theorem smoothed_between (a r : Nat) : min a (8 * r) ≤ smoothed a r ∧ smoothed a r ≤ max a (8 * r) := by
  have step := eighth_between (8 * (r : Int) - a)
  have cast := smoothed_cast a r
  omega

/-- From an estimate within 320..1,920 a reading within 40..240 leads to one within 320..1,920. -/
theorem smoothed_bounds {a r : Nat} (low : 320 ≤ a) (high : a ≤ 1920) (rlow : 40 ≤ r) (rhigh : r ≤ 240) :
    320 ≤ smoothed a r ∧ smoothed a r ≤ 1920 := by
  obtain ⟨above, below⟩ := smoothed_between a r
  omega

/-! ### A reading in each sensor state and hold (R154, R157 to R159) -/

theorem good_of_tracking {l : LevelEntry} {a : Nat} (r : Nat) (opened : l.hold = .opened) (tracking : l.sensor = .tracking)
    (estimate : l.estimate = some a) : l.good r = { l with estimate := some (smoothed a r) } := by
  simp [LevelEntry.good, LevelEntry.effectiveAmbient, tracking, opened, estimate]

theorem good_of_awaiting {l : LevelEntry} (r : Nat) (opened : l.hold = .opened) (awaiting : l.sensor = .awaiting) :
    l.good r = { l with estimate := some (8 * r), sensor := .tracking } := by
  simp [LevelEntry.good, awaiting, opened]

theorem good_of_fault {l : LevelEntry} (r : Nat) (opened : l.hold = .opened) (fault : l.sensor = .fault) :
    l.good r = { l with estimate := some (8 * r), sensor := .tracking, pendingDefault := false } := by
  simp [LevelEntry.good, fault, opened]

/-- A good reading under a hold that is not OPEN: a recovery goes to AWAITING without a pending default, and in the other
sensor states nothing changes. -/
theorem good_of_not_opened {l : LevelEntry} (r : Nat) (closed : l.hold ≠ .opened) :
    l.good r = if l.sensor = .fault then { l with sensor := .awaiting, pendingDefault := false } else l := by
  cases hold : l.hold with
  | opened => exact absurd hold closed
  | held | releasing => cases sensor : l.sensor <;> simp [LevelEntry.good, sensor, hold]

/-- A sensor fault under a hold that is not OPEN leaves the default pending, and changes nothing of an entry in FAULT. -/
theorem faulted_of_not_opened {l : LevelEntry} (closed : l.hold ≠ .opened) :
    l.faulted = if l.sensor = .fault then l else { l with sensor := .fault, pendingDefault := true } := by
  cases hold : l.hold with
  | opened => exact absurd hold closed
  | held | releasing => cases sensor : l.sensor <;> simp [LevelEntry.faulted, sensor, hold]

/-- The estimate and the attenuation stand through a good reading while the hold is not OPEN. -/
theorem good_stands {l : LevelEntry} (r : Nat) (closed : l.hold ≠ .opened) :
    (l.good r).estimate = l.estimate ∧ (l.good r).attenuation = l.attenuation := by
  rw [good_of_not_opened r closed]
  split <;> exact ⟨rfl, rfl⟩

/-- They stand through a sensor fault too. -/
theorem faulted_stands {l : LevelEntry} (closed : l.hold ≠ .opened) :
    l.faulted.estimate = l.estimate ∧ l.faulted.attenuation = l.attenuation := by
  rw [faulted_of_not_opened closed]
  split <;> exact ⟨rfl, rfl⟩

/-- A reading within 40..240 is a good reading, and restarts the silence timer (R154, R155). -/
theorem reads_of_good {r : Nat} (l : LevelEntry) (now : Instant) (low : 40 ≤ r) (high : r ≤ 240) :
    l.reads now (some r) = LevelEntry.good r { l with silence := now + sec 10 } := by
  simp [LevelEntry.reads, low, high]

/-- Whatever is read while the hold is not OPEN, the estimate and the attenuation stand. -/
theorem reads_stands {l : LevelEntry} (now : Instant) (reading : Option Nat) (closed : l.hold ≠ .opened) :
    (l.reads now reading).estimate = l.estimate ∧ (l.reads now reading).attenuation = l.attenuation := by
  cases reading with
  | none => exact ⟨rfl, rfl⟩
  | some r =>
    simp only [LevelEntry.reads]
    split
    · exact good_stands (l := { l with silence := now + sec 10 }) r closed
    · exact faulted_stands (l := { l with silence := now + sec 10 }) closed

/-- Settles O48, by the sensor state under an OPEN hold, and by what stands under the others. -/
theorem goodReadingsMoveAnOpenEstimate : Obligations.GoodReadingsMoveAnOpenEstimate := by
  refine ⟨fun l r opened => ⟨fun a tracking estimate => ?_, good_of_awaiting r opened, good_of_fault r opened⟩,
    fun l now reading closed => ?_⟩
  · have moved := good_of_tracking r opened tracking estimate
    refine ⟨by rw [← smoothed_cast, Int.toNat_natCast, moved], fun low high rlow rhigh => ?_⟩
    obtain ⟨above, below⟩ := smoothed_bounds low high rlow rhigh
    exact ⟨smoothed a r, by rw [moved], above, below, smoothed_cast a r⟩
  · obtain ⟨estimate, attenuation⟩ := reads_stands now reading closed
    exact ⟨estimate, (faulted_stands closed).1, attenuation⟩

/-! ### The level entry of a zone after a change -/

/-- The level entry found for a zone is one of that zone. -/
theorem zone_of_level {w : Works} {zone : Nat} {l : LevelEntry} (here : w.level zone = some l) : l.zone = zone := by
  simpa using List.find?_some here

/-- Looking up any zone after the level entry of one has been changed. -/
theorem level_modLevel {f : LevelEntry → LevelEntry} (keeps : ∀ l, (f l).zone = l.zone) (zone other : Nat) (w : Works) :
    (w.modLevel zone f).level other = (w.level other).map (fun l => if l.zone = zone then f l else l) := by
  have number : (fun l : LevelEntry => decide (l.zone = other)) ∘ (fun l => if l.zone = zone then f l else l)
      = fun l => decide (l.zone = other) := by
    funext l
    by_cases here : l.zone = zone <;> simp [here, keeps]
  simp only [Works.level, Works.modLevel, List.find?_map, number]

/-- The changed entry is the one found at its zone. -/
theorem level_modLevel_same {w : Works} {f : LevelEntry → LevelEntry} {zone : Nat} {l : LevelEntry}
    (keeps : ∀ l, (f l).zone = l.zone) (here : w.level zone = some l) : (w.modLevel zone f).level zone = some (f l) := by
  simp [level_modLevel keeps, here, zone_of_level here]

/-- Another zone's entry stands as it stood. -/
theorem level_modLevel_of_ne {f : LevelEntry → LevelEntry} {zone other : Nat} (keeps : ∀ l, (f l).zone = l.zone)
    (w : Works) (ne : other ≠ zone) : (w.modLevel zone f).level other = w.level other := by
  rw [level_modLevel keeps]
  cases found : w.level other with
  | none => rfl
  | some l => simp [zone_of_level found, ne]

/-! ### The end of a hold (R156, R160) -/

/-- A pending default is applied when the hold opens. -/
theorem openHold_of_pending {l : LevelEntry} (pending : l.pendingDefault = true) :
    l.openHold = { l with hold := .opened, release := none, estimate := some l.defaultEstimate, pendingDefault := false } := by
  simp [LevelEntry.openHold, pending]

/-- Without one the hold just opens. -/
theorem openHold_of_not_pending {l : LevelEntry} (clear : l.pendingDefault = false) :
    l.openHold = { l with hold := .opened, release := none } := by
  simp [LevelEntry.openHold, clear]

/-- The default ambient in sixteenths of a dB, from its half-dB units (R153). -/
theorem defaultEstimate_eq (l : LevelEntry) : l.defaultEstimate = 16 * l.settings.ambient / 2 := by
  unfold LevelEntry.defaultEstimate
  omega

/-- What the release timer's expiry makes of a level entry. -/
def released (l : LevelEntry) : LevelEntry := if l.release.isSome then l.openHold else l

theorem released_zone (l : LevelEntry) : (released l).zone = l.zone := by
  unfold released
  split
  · exact l.openHold_wf.2
  · rfl

/-- The expiry of a running timer with a default pending: OPEN, at the default. -/
theorem released_of_pending {l : LevelEntry} (timer : l.release.isSome = true) (pending : l.pendingDefault = true) :
    released l = { l with hold := .opened, release := none, estimate := some (16 * l.settings.ambient / 2),
                          pendingDefault := false } := by
  rw [released, if_pos timer, openHold_of_pending pending, defaultEstimate_eq]

/-- RELEASE_TIMER_EXPIRY reaches the zone's level entry alone, and no work is left over. -/
theorem exec_releaseTimerExpiry {s : State} (zone : Nat) (rested : s.rested) :
    exec (.releaseTimerExpiry zone) s = .next (s.withWs (s.ws.modLevel zone released)) :=
  run_of_empty (releaseExpires zone) s rested

/-- A recovery reading under a hold that is not OPEN: AWAITING, nothing pending, the estimate and the hold as they were. -/
theorem reads_of_recovery_closed {l : LevelEntry} {r : Nat} (now : Instant) (closed : l.hold ≠ .opened)
    (fault : l.sensor = .fault) (low : 40 ≤ r) (high : r ≤ 240) :
    l.reads now (some r) = { l with silence := now + sec 10, sensor := .awaiting, pendingDefault := false } := by
  rw [reads_of_good l now low high, good_of_not_opened (l := { l with silence := now + sec 10 }) r closed]
  simp [fault]

/-- The first good reading of an entry that is not TRACKING, once its hold is OPEN: eight times the reading. -/
theorem reads_of_first_good {l : LevelEntry} {r : Nat} (now : Instant) (opened : l.hold = .opened)
    (fresh : l.sensor = .awaiting ∨ l.sensor = .fault) (low : 40 ≤ r) (high : r ≤ 240) :
    (l.reads now (some r)).estimate = some (8 * r) ∧ (l.reads now (some r)).sensor = .tracking := by
  rw [reads_of_good l now low high]
  rcases fresh with awaiting | fault
  · rw [good_of_awaiting (l := { l with silence := now + sec 10 }) r opened awaiting]
    exact ⟨rfl, rfl⟩
  · rw [good_of_fault (l := { l with silence := now + sec 10 }) r opened fault]
    exact ⟨rfl, rfl⟩

/-- Settles O49: the expiry by what it makes of the one entry; the recovery by which of the two comes first. -/
theorem releaseAppliesThePendingDefault : Obligations.ReleaseAppliesThePendingDefault := by
  refine ⟨?expiry, ?recovery, fun _ => rfl⟩
  case expiry =>
    intro s zone l rested here timer pending
    refine ⟨_, exec_releaseTimerExpiry zone rested, ?_, ?_, rfl, rfl, rfl, rfl, rfl⟩
    · exact released_of_pending timer pending ▸ level_modLevel_same released_zone here
    · exact fun _ ne => level_modLevel_of_ne released_zone s.ws ne
  case recovery =>
    intro l now r r' fault releasing pending low high low' high' first
    have taken : first = _ := reads_of_recovery_closed now (by simp [releasing]) fault low high
    have opened : first.openHold = _ := openHold_of_not_pending (by rw [taken])
    have next : (first.openHold.reads now (some r')).estimate = some (8 * r')
        ∧ (first.openHold.reads now (some r')).sensor = .tracking :=
      reads_of_first_good now (by rw [opened]) (.inl (by rw [opened, taken])) low' high'
    have late : (l.openHold.reads now (some r)).estimate = some (8 * r)
        ∧ (l.openHold.reads now (some r)).sensor = .tracking :=
      reads_of_first_good now (by rw [openHold_of_pending pending]) (.inr (by rw [openHold_of_pending pending, fault]))
        low high
    exact ⟨by rw [taken], by rw [taken], by rw [taken], next.1, next.2, late.1, late.2⟩

/-! ### The attenuation for a class (R162, R163) -/

/-- Stage 2 holds the target between the zone's floor and ceiling. -/
theorem target_bounds {l : LevelEntry} (c : Cls) (ordered : l.settings.floor ≤ l.settings.ceiling) :
    l.settings.floor ≤ l.target c ∧ l.target c ≤ l.settings.ceiling := by
  simp only [LevelEntry.target]
  split
  · exact ⟨le_rfl, ordered⟩
  · split
    · exact ⟨ordered, le_rfl⟩
    · omega

/-- With consistent settings stage 3 loses nothing: the level driven is the target (R161). -/
theorem full_sub_attenuationFor {l : LevelEntry} (c : Cls) (consistent : levelsConsistent l.settings = true) :
    l.settings.full - l.attenuationFor c = l.target c
      ∧ l.settings.floor ≤ l.target c ∧ l.target c ≤ l.settings.ceiling := by
  obtain ⟨ceiling, full, ordered⟩ := of_decide_eq_true consistent
  have bounds := target_bounds c ordered
  refine ⟨?_, bounds⟩
  unfold LevelEntry.attenuationFor
  omega

/-- An ask records the attenuation for its class in the zone's entry, and nothing else there. -/
theorem level_askLevel_same {w : Works} {zone : Nat} {l : LevelEntry} (c : Cls) (here : w.level zone = some l) :
    (w.askLevel zone c).level zone = some { l with attenuation := l.attenuationFor c } :=
  level_modLevel_same (f := fun l => { l with attenuation := l.attenuationFor c }) (fun _ => rfl) here

/-- Settles O50, stage by stage. -/
theorem attenuationInThreeStages : Obligations.AttenuationInThreeStages := by
  intro l c raw target
  refine ⟨?present, ?absent, rfl, attenuationFor_le l c, full_sub_attenuationFor c, fun _ => level_askLevel_same c⟩
  case present =>
    intro a estimate
    simp [LevelEntry.effectiveAmbient, estimate]
  case absent =>
    intro absent
    simp [LevelEntry.effectiveAmbient, absent, defaultEstimate_eq]

end Sys2Proof.Proofs.LevelControl
end

section
/-! The Report Unit's answer to a STATUS-QUERY (R185) and the FAULT output (R181): what becomes of a frame a block hands to
the Line Interface where nothing is removed from the queue for it, what taking the query at the head of the receive FIFO
does, and when the fault set is empty. -/

namespace Sys2Proof.Proofs.Reports

open Sys2Proof Sys2Proof.Machine

/-! ### A frame handed to the Line Interface (R167) -/

theorem ne_start_of_onLine {e : Env} (line : e.onLine) : e.part.state ≠ .start := by
  rcases line with state | state | state <;> simp [state]

theorem ne_isolated_of_onLine {e : Env} (line : e.onLine) : e.part.state ≠ .isolated := by
  rcases line with state | state | state <;> simp [state]

/-- On the line, with a place in the queue, a frame handed over is queued. -/
theorem hand_of_room {e : Env} {w : Works} (f : Frame) (p : TxPurpose) (line : e.onLine) (room : w.room) :
    w.hand e f p = w.queueFrame f p := by
  simp [Works.hand, ne_start_of_onLine line, ne_isolated_of_onLine line, room]

/-- In ISOLATED a frame is refused, the isolation PROFILE apart. -/
theorem hand_of_isolated {e : Env} {p : TxPurpose} (w : Works) (f : Frame) (isolated : e.part.state = .isolated)
    (other : p ≠ .isolationProfile) : w.hand e f p = w.unsent f p := by
  simp [Works.hand, isolated, other]

/-- A class-3 frame takes no other frame's place: on a full queue it is refused. -/
theorem hand_of_full {e : Env} {w : Works} {f : Frame} (p : TxPurpose) (line : e.onLine) (full : ¬ w.room)
    (cls : f.cls = .information) : w.hand e f p = w.unsent f p := by
  simp [Works.hand, ne_start_of_onLine line, ne_isolated_of_onLine line, full, cls]

/-! ### STATUS-QUERY (R185) -/

@[simp] theorem statusFrame_cls (e : Env) (w : Works) (dest : Nat) : (statusFrame e w dest).cls = .information := rfl

/-- A STATUS frame that is not sent is counted, and no block is told. -/
theorem unsent_statusFrame (e : Env) (v w : Works) (dest : Nat) (p : TxPurpose) :
    w.unsent (statusFrame e v dest) p = w.bump .framesDropped := rfl

/-- Taking the STATUS-QUERY at the head of the receive FIFO hands the answer over, and does nothing else when the hand-over
leaves no work to other blocks. -/
theorem exec_statusQuery {s : State} {f : Frame} {rest : List Frame} (head : s.passes f rest)
    (query : f.payload = .statusQuery) {w : Works}
    (handed : (s.taken rest).hand s.env (statusFrame s.env (s.taken rest) f.source) .plain = w) (settled : w.agenda = []) :
    exec .statusQuery s = .next (s.withWs w) := by
  obtain ⟨first, noEcho⟩ := head
  have act : actStatusQuery f = some (onWorks (fun e w => w.hand e (statusFrame e w f.source) .plain)) := by
    simp [actStatusQuery, query]
  have effect : takeFrom actStatusQuery s.node = { s.node with ws := w } := by
    rw [takeFrom_of_head _ _ _ _ _ first noEcho act, ← handed]
    rfl
  calc exec .statusQuery s = run (takeFrom actStatusQuery) s := rfl
    _ = _ := by
      rw [run_of_empty _ s (by rw [effect]; exact settled), effect]
      rfl

/-- Settles O14, by what becomes of the answer: queued where there is a place, refused in ISOLATED and on a full queue.
The frame the statement writes out is `statusFrame`, with its state code by cases. -/
theorem statusQueryIsAnswered : Obligations.StatusQueryIsAnswered := by
  intro s f rest rested head query
  refine ⟨fun line room => ?queued, fun refused => ?refused⟩
  case queued => exact exec_statusQuery head query (hand_of_room (w := s.taken rest) _ _ line room) rested
  case refused =>
    have handed : (s.taken rest).hand s.env (statusFrame s.env (s.taken rest) f.source) .plain
        = (s.taken rest).bump .framesDropped := by
      rw [← unsent_statusFrame s.env (s.taken rest) (s.taken rest) f.source .plain]
      rcases refused with isolated | ⟨line, full⟩
      · exact hand_of_isolated _ _ isolated (by decide)
      · exact hand_of_full (w := s.taken rest) _ line full (statusFrame_cls _ _ _)
    exact exec_statusQuery head query handed rested

/-! ### The FAULT output (R181) -/

/-- The set holds no condition exactly when it is the empty one: no single condition, and both zone lists empty. -/
theorem nonempty_eq_false_iff (f : FaultSet) :
    f.nonempty = false ↔ f = { flashPort := false, safeConfig := false, isolatedRecovered := false, clockUnknown := false,
                               zoneLine := [], sensor := [] } := by
  cases f
  simp [FaultSet.nonempty, and_assoc]

theorem nonempty_iff (f : FaultSet) :
    f.nonempty = true ↔ f ≠ { flashPort := false, safeConfig := false, isolatedRecovered := false, clockUnknown := false,
                              zoneLine := [], sensor := [] } := by
  rw [Ne, ← nonempty_eq_false_iff, Bool.not_eq_false]

/-- Settles O51: the output is the two conditions' disjunction, and at start reset neither holds. -/
theorem faultOutputFollowsTheSet : Obligations.FaultOutputFollowsTheSet := by
  refine ⟨fun e w => ?follows, rfl⟩
  simp only [faultOutput, Bool.or_eq_true, Bool.and_eq_true, decide_eq_true_eq, nonempty_iff]

end Sys2Proof.Proofs.Reports
end


section
/-! The effect of every command, apart from the settling after it, and everything it can do to the works: `Acts may w0 w`
says that `w` comes from `w0` by what settling can do (`Settles`) and by changes of the parts of the works that `may`
names.  What a command may change is said once, in a table of the commands; the invariants of the works and the frames of
its parts then follow from the kinds of change, whatever the command. -/

namespace Sys2Proof.Proofs.Effects

open Sys2Proof Sys2Proof.Machine

/-! ### The effect of a command -/

/-- What a command does to the node before the work it causes is settled. -/
def effect : Instr → Node → Node
  | .startReset => startReset
  | .resetRelease node dset => resetReleased node dset
  | .configImageTaken image => imageTaken image
  | .srvPulse => serviceReset
  | .listenTimerExpiry => listenExpires
  | .isolationTimerExpiry => isolationExpires
  | .frameStart rivals => frameStarts rivals
  | .ownFrameSpoiled checkAgreed => ownFrameSpoiled checkAgreed
  | .ownFrameSent checkAgreed => ownFrameSent checkAgreed
  | .frameReceived bytes spoiled => frameReceived bytes spoiled
  | .echo => deliverEcho (fun _ => true)
  | .seizeEcho => deliverEcho EchoPlace.isSeize
  | .zoneAskEcho => deliverEcho EchoPlace.isZoneAsk
  | .isolationProfileEcho => deliverEcho (fun x => x.isProfile && x.purpose = .isolationProfile)
  | .profileEcho => deliverEcho (fun x => x.isProfile && x.purpose = .listenProfile)
  | .time => takeFrom actTime
  | .call => takeFrom actCall
  | .announce => takeFrom actAnnounce
  | .quiet => takeFrom actQuiet
  | .wake => takeFrom actWake
  | .serviceReset => takeFrom actServiceReset
  | .replayLast => takeFrom actReplayLast
  | .statusQuery => takeFrom actStatusQuery
  | .profile => takeFrom actProfile
  | .seize => takeFrom actSeize
  | .free => takeFrom actFree
  | .zoneAsk => takeFrom actZoneAsk
  | .zoneLeave => takeFrom actZoneLeave
  | .zoneAnswer => takeFrom actZoneAnswer
  | .zoneRevoke => takeFrom actZoneRevoke
  | .tick => tickHappens
  | .retentionTimerExpiry slot => retentionExpires slot
  | .dwellTimerExpiry slot => dwellExpires slot
  | .presenceInputChange position level => presenceChanges position level
  | .debounceTimerExpiry position => debounceExpires position
  | .triggerRisingEdge input => triggerEdge input true
  | .triggerFallingEdge input => triggerEdge input false
  | .retryTimerExpiry tag => onWorks (fun e w => w.retryExpires e tag)
  | .gapTimerExpiry tag => onWorks (fun e w => w.gapExpires e tag)
  | .templateReadComplete data => onWorks (fun e w => w.templateRead e (some data))
  | .directoryReadComplete data => onWorks (fun e w => w.directoryRead e (some data))
  | .audioReadComplete data => onWorks (fun e w => w.audioComplete e (some data))
  | .flashReadNoResponse => onWorks (fun e w => w.noResponse e)
  | .samplePeriod carrier => samplePeriod carrier
  | .gapSilenceEnd channel => gapSilenceEnds channel
  | .underrun channel => underrunReached channel
  | .stall channel => stallReached channel
  | .settleTimerExpiry zone => onWorks (fun e w => w.settleExpires e zone)
  | .holdTimerExpiry zone => onWorks (fun e w => w.holdExpires e zone)
  | .expiryTimerExpiry zone => onWorks (fun e w => w.holderExpires e zone)
  | .waitTimerExpiry zone node tag => onWorks (fun e w => w.waitExpires e zone node tag)
  | .lineFaultInputChange output level => lineFaultChanges output level
  | .trunkViewExpiry trunk => onWorks (fun e w => w.viewExpires e trunk)
  | .trunkWaitTimerExpiry tag => onWorks (fun e w => w.trunkWaitEnds e tag)
  | .answerTimerExpiry tag home => onWorks (fun e w => w.answerExpires e tag home)
  | .gatherTimerExpiry tag => onWorks (fun e w => w.gatherExpires e tag)
  | .readyTimerExpiry tag => onWorks (fun e w => w.readyExpires e tag)
  | .startTimerExpiry tag => onWorks (fun e w => w.startExpires e tag)
  | .backoffTimerExpiry tag => onWorks (fun e w => w.backoffExpires e tag)
  | .ambientReadingCycle readings => ambientReadings readings
  | .silenceTimerExpiry zone => silenceExpires zone
  | .releaseTimerExpiry zone => releaseExpires zone

/-- A command is its effect and the settling after it. -/
theorem exec_eq (c : Instr) (s : State) : exec c s = .next { s with node := (effect c s.node).settled } := by
  cases c <;> rfl

theorem next_of_exec {c : Instr} {s t : State} (h : exec c s = .next t) :
    t = { s with node := (effect c s.node).settled } := by
  rw [exec_eq] at h
  exact (Host.Outcome.next.inj h).symm

/-- What a command leaves is what settling makes of the works its effect left, and the effect's own surroundings. -/
theorem env_of_exec {c : Instr} {s t : State} (h : exec c s = .next t) : t.env = (effect c s.node).env := by
  rw [next_of_exec h]
  rfl

theorem settles_of_exec {c : Instr} {s t : State} (h : exec c s = .next t) : Settles (effect c s.node).ws t.ws := by
  rw [next_of_exec h]
  exact settle_settles _ _ _

/-! ### What the effect of a command can do to the works -/

/-- The parts of the works that settling never changes, and the counters, which it never lowers. -/
inductive WorksPart where
  | fifo | view | faults | cache | counters
  deriving DecidableEq

/-- The frames of a FIFO carry days and seconds in range. -/
abbrev timesInRange (l : List Frame) : Prop := ∀ f ∈ l, f.timeInRange

/-- What one command can do to the works, when it may change the parts `may`. -/
inductive Acts (may : List WorksPart) (w0 : Works) : Works → Prop
  | refl : Acts may w0 w0
  | settles {w w' : Works} : Acts may w0 w → Settles w w' → Acts may w0 w'
  | reset : (∀ p, p ∈ may) → Acts may w0 Works.reset
  | line {w : Works} (l : Line) : Acts may w0 w → (w.line.queueWf → l.queueWf) → (w.line.countsWf → l.countsWf) →
      (timesInRange w.line.rx → timesInRange l.rx) → (.fifo ∈ may ∨ l.rx = w.line.rx) → Acts may w0 { w with line := l }
  | view {w : Works} (ts : List (Option TrunkHold)) : Acts may w0 w → .view ∈ may →
      (w.trunks.length = 4 → ts.length = 4) → Acts may w0 { w with trunks := ts }
  | faults {w : Works} (f : FaultSet) (seq : Nat) : Acts may w0 w → .faults ∈ may → seq ≤ 255 →
      Acts may w0 { w with report := { w.report with faults := f, seq := seq } }
  | cache {w : Works} (c : Option (Nat × List Byte)) : Acts may w0 w → .cache ∈ may →
      Acts may w0 { w with flash := { w.flash with cache := c } }
  | counters {w : Works} : Acts may w0 w → .counters ∈ may → Acts may w0 w.clearCounters
  | channels {w : Works} (cs : List Channel) : Acts may w0 w →
      (w.channels.length = 2 → w.flash.streams.length = 2 → cs.length = 2) → Acts may w0 { w with channels := cs }
  | zones {w : Works} (z : ZoneTable) : Acts may w0 w → (w.zones.wf → z.wf) → Acts may w0 { w with zones := z }
  | levels {w : Works} (l : List LevelEntry) : Acts may w0 w → ((∀ x ∈ w.levels, x.wf) → ∀ x ∈ l, x.wf) →
      Acts may w0 { w with levels := l }

theorem Acts.moves {may : List WorksPart} {w0 w w' : Works} (h : Acts may w0 w) (m : Moves w w') : Acts may w0 w' :=
  h.settles (Settles.refl.moves m)

/-- Acts follow one another. -/
theorem Acts.trans {may : List WorksPart} {a b c : Works} (h : Acts may a b) (k : Acts may b c) : Acts may a c := by
  induction k with
  | refl => exact h
  | settles _ m ih => exact ih.settles m
  | reset all => exact .reset all
  | line l _ h1 h2 h3 h4 ih => exact ih.line l h1 h2 h3 h4
  | view ts _ h1 h2 ih => exact ih.view ts h1 h2
  | faults f seq _ h1 h2 ih => exact ih.faults f seq h1 h2
  | cache c _ h1 ih => exact ih.cache c h1
  | counters _ h1 ih => exact ih.counters h1
  | channels cs _ h1 ih => exact ih.channels cs h1
  | zones z _ h1 ih => exact ih.zones z h1
  | levels l _ h1 ih => exact ih.levels l h1

/-! ### What acting keeps -/

/-- The works right after reset keep every bound. -/
theorem reset_lawful : Works.reset.line.queueWf ∧ Works.reset.line.countsWf ∧ timesInRange Works.reset.line.rx
    ∧ Works.reset.report.wf ∧ Works.reset.zones.wf ∧ (∀ l ∈ Works.reset.levels, l.wf) ∧ Works.reset.jobs.wf := by
  refine ⟨by decide, by decide, ?_, by decide, ?_, ?_, by decide⟩
  all_goals intro x hx; exact absurd hx List.not_mem_nil

variable {may : List WorksPart} {w0 w : Works}

theorem Acts.queueWf (h : Acts may w0 w) : w0.line.queueWf → w.line.queueWf := by
  induction h with
  | refl => exact id
  | settles _ m ih => exact fun x => m.queueWf (ih x)
  | reset _ => exact fun _ => reset_lawful.1
  | line l _ h1 _ _ _ ih => exact fun x => h1 (ih x)
  | _ => assumption

theorem Acts.countsWf (h : Acts may w0 w) : w0.line.countsWf → w.line.countsWf := by
  induction h with
  | refl => exact id
  | settles _ m ih =>
    obtain ⟨-, -, -, -, rx, -, run, own, -⟩ := m.kept
    intro x
    rw [Line.countsWf, rx, run, own]
    exact ih x
  | reset _ => exact fun _ => reset_lawful.2.1
  | line l _ _ h2 _ _ ih => exact fun x => h2 (ih x)
  | _ => assumption

theorem Acts.times (h : Acts may w0 w) : timesInRange w0.line.rx → timesInRange w.line.rx := by
  induction h with
  | refl => exact id
  | settles _ m ih =>
    obtain ⟨-, -, -, -, rx, -⟩ := m.kept
    exact fun x => rx ▸ ih x
  | reset _ => exact fun _ => reset_lawful.2.2.1
  | line l _ _ _ h3 _ ih => exact fun x => h3 (ih x)
  | _ => assumption

theorem Acts.reportWf (h : Acts may w0 w) : w0.report.wf → w.report.wf := by
  induction h with
  | refl => exact id
  | settles _ m ih => exact fun x => m.reportWf (ih x)
  | reset _ => exact fun _ => reset_lawful.2.2.2.1
  | faults f seq _ _ hs ih => exact fun x => ⟨(ih x).1, (ih x).2.1, hs⟩
  | counters _ _ ih => exact fun x => ⟨List.length_replicate, by simp [Works.clearCounters], (ih x).2.2⟩
  | _ => assumption

theorem Acts.zonesWf (h : Acts may w0 w) : w0.zones.wf → w.zones.wf := by
  induction h with
  | refl => exact id
  | settles _ m ih => exact fun x => m.zonesWf (ih x)
  | reset _ => exact fun _ => reset_lawful.2.2.2.2.1
  | zones z _ h1 ih => exact fun x => h1 (ih x)
  | _ => assumption

theorem Acts.levelsWf (h : Acts may w0 w) : (∀ l ∈ w0.levels, l.wf) → ∀ l ∈ w.levels, l.wf := by
  induction h with
  | refl => exact id
  | settles _ m ih => exact fun x => m.levelsWf (ih x)
  | reset _ => exact fun _ => reset_lawful.2.2.2.2.2.1
  | levels l _ h1 ih => exact fun x => h1 (ih x)
  | _ => assumption

theorem Acts.jobsWf (h : Acts may w0 w) : w0.jobs.wf → w.jobs.wf := by
  induction h with
  | refl => exact id
  | settles _ m ih => exact fun x => m.jobsWf (ih x)
  | reset _ => exact fun _ => reset_lawful.2.2.2.2.2.2
  | _ => assumption

/-- The works' tables have the sizes the spec gives them. -/
abbrev worksSized (w : Works) : Prop := w.channels.length = 2 ∧ w.flash.streams.length = 2 ∧ w.trunks.length = 4

theorem Acts.sized (h : Acts may w0 w) : worksSized w0 → worksSized w := by
  induction h with
  | refl => exact id
  | settles _ m ih =>
    obtain ⟨view, -, -, -, -, -, -, -, -, channels, streams⟩ := m.kept
    intro x
    rw [worksSized, view, channels, streams]
    exact ih x
  | reset _ => exact fun _ => ⟨rfl, rfl, rfl⟩
  | view ts _ _ h1 ih => exact fun x => ⟨(ih x).1, (ih x).2.1, h1 (ih x).2.2⟩
  | channels cs _ h1 ih => exact fun x => ⟨h1 (ih x).1 (ih x).2.1, (ih x).2⟩
  | _ => assumption

theorem Acts.fifo_eq (h : Acts may w0 w) (not : WorksPart.fifo ∉ may) : w.line.rx = w0.line.rx := by
  induction h with
  | refl => rfl
  | settles _ m ih =>
    obtain ⟨-, -, -, -, rx, -⟩ := m.kept
    exact rx.trans ih
  | reset all => exact absurd (all _) not
  | line l _ _ _ _ h4 ih => exact (h4.resolve_left not).trans ih
  | _ => assumption

theorem Acts.view_eq (h : Acts may w0 w) (not : WorksPart.view ∉ may) : w.trunks = w0.trunks := by
  induction h with
  | refl => rfl
  | settles _ m ih => exact m.kept.1.trans ih
  | reset all => exact absurd (all _) not
  | view _ _ h1 _ _ => exact absurd h1 not
  | _ => assumption

theorem Acts.faults_eq (h : Acts may w0 w) (not : WorksPart.faults ∉ may) :
    w.report.faults = w0.report.faults ∧ w.report.seq = w0.report.seq := by
  induction h with
  | refl => exact ⟨rfl, rfl⟩
  | settles _ m ih => exact ⟨m.kept.2.1.trans ih.1, m.kept.2.2.1.trans ih.2⟩
  | reset all => exact absurd (all _) not
  | faults _ _ _ h1 _ _ => exact absurd h1 not
  | _ => assumption

theorem Acts.cache_eq (h : Acts may w0 w) (not : WorksPart.cache ∉ may) : w.flash.cache = w0.flash.cache := by
  induction h with
  | refl => rfl
  | settles _ m ih => exact m.kept.2.2.2.1.trans ih
  | reset all => exact absurd (all _) not
  | cache _ _ h1 _ => exact absurd h1 not
  | _ => assumption

/-- A counter in its range. -/
theorem counter_le (wf : w.report.wf) (k : Counter) : w.counter k ≤ 65535 := by
  unfold Works.counter
  rw [List.getD_eq_getElem?_getD]
  cases found : w.report.counters[k.index]? with
  | none => simp
  | some v => exact wf.2.1 v (List.mem_of_getElem? found)

/-- Moves lower no counter. -/
theorem moves_counter_le (h : Moves w0 w) (wf : w0.report.wf) (k : Counter) : w0.counter k ≤ w.counter k := by
  induction h with
  | refl => exact le_rfl
  | bump c m ih =>
    refine ih.trans ?_
    rw [Works.counter_bump]
    split
    · exact le_saturate _ (counter_le (m.reportWf wf) k)
    · exact le_rfl
  | _ => assumption

/-- Settling lowers no counter. -/
theorem settles_counter_le (h : Settles w0 w) (wf : w0.report.wf) (k : Counter) : w0.counter k ≤ w.counter k := by
  induction h with
  | refl => exact le_rfl
  | moves s m ih => exact ih.trans (moves_counter_le m (s.reportWf wf) k)
  | create j s m _ ih => exact ih.trans (moves_counter_le m (s.reportWf wf) k)

theorem Acts.counter_le (h : Acts may w0 w) (not : WorksPart.counters ∉ may) (wf : w0.report.wf) (k : Counter) :
    w0.counter k ≤ w.counter k := by
  induction h with
  | refl => exact le_rfl
  | settles a m ih => exact ih.trans (settles_counter_le m (a.reportWf wf) k)
  | reset all => exact absurd (all _) not
  | counters _ h1 _ => exact absurd h1 not
  | _ => assumption

end Sys2Proof.Proofs.Effects
end


section
/-! What each command's effect does to the works: acts on the parts that the command names (`touches`), one lemma for each
operation that is more than a move. -/

namespace Sys2Proof.Proofs.Effects

open Sys2Proof Sys2Proof.Machine

variable {may : List WorksPart} {w0 w : Works}

/-! ### The Report Unit and the line -/

theorem Acts.bump (h : Acts may w0 w) (c : Counter) : Acts may w0 (w.bump c) := h.moves (Moves.refl.bump c)

theorem Acts.bumpBy (h : Acts may w0 w) (c : Counter) (n : Nat) : Acts may w0 (w.bumpBy c n) :=
  h.moves (Works.bumpBy_moves c n .refl)

theorem Acts.post (h : Acts may w0 w) (n : Note) : Acts may w0 (w.post n) := h.moves (Works.post_moves n .refl)

theorem Acts.hand (h : Acts may w0 w) (e : Env) (f : Frame) (p : TxPurpose) : Acts may w0 (w.hand e f p) :=
  h.moves (Works.hand_moves e f p .refl)

/-- An event of the fault set (R180, R182). -/
theorem Acts.faultEvent (h : Acts may w0 w) (e : Env) (f : FaultSet → FaultSet) (ok : .faults ∈ may) :
    Acts may w0 (w.faultEvent e f) := by
  unfold Works.faultEvent
  split
  · exact h
  · exact ((h.faults (f w.report.faults) ((w.report.seq + 1) % 256) ok (by omega)).bump _).hand e _ _

/-- A change of the queue, the echo and the counts, the receive FIFO apart. -/
theorem Acts.lineKept (h : Acts may w0 w) (l : Line) (queue : w.line.queueWf → l.queueWf)
    (counts : w.line.countsWf → l.countsWf) (rx : l.rx = w.line.rx) : Acts may w0 { w with line := l } :=
  h.line l queue counts (fun times => rx ▸ times) (Or.inr rx)

/-- The check of a frame is compared (R165). -/
theorem Acts.compareCheck (h : Acts may w0 w) (good : Bool) : Acts may w0 (w.compareCheck good) := by
  unfold Works.compareCheck
  dsimp only
  split
  · exact h.lineKept _ id (fun c => ⟨c.1, Nat.zero_le _, c.2.2⟩) rfl
  · refine Acts.bump (h.lineKept _ ?_ ?_ ?_) _
    all_goals split
    · exact id
    · exact id
    · exact fun c => ⟨c.1, by simpa using ‹w.line.spoilRun < 16›, c.2.2⟩
    · exact id
    · rfl
    · rfl

/-- Frames that change but for their class keep the order of the queue. -/
theorem classOrdered_map {l : List TxFrame} {g : TxFrame → TxFrame} (same : ∀ x, (g x).frame = x.frame)
    (h : classOrdered l) : classOrdered (l.map g) := by
  refine List.pairwise_map.mpr (h.imp ?_)
  intro a b le
  rw [same, same]
  exact le

/-- A part of the queue keeps its bounds. -/
theorem queueWf_filter {l : Line} (p : TxFrame → Bool) (h : l.queueWf) : ({ l with tx := l.tx.filter p } : Line).queueWf :=
  ⟨(List.length_filter_le _ _).trans h.1, h.2.sublist List.filter_sublist⟩

theorem queueWf_map {l : Line} {g : TxFrame → TxFrame} (same : ∀ x, (g x).frame = x.frame) (h : l.queueWf) :
    ({ l with tx := l.tx.map g } : Line).queueWf :=
  ⟨by simpa using h.1, classOrdered_map same h.2⟩

theorem queueWf_emptyQueue {l : Line} (h : l.queueWf) : l.emptyQueue.queueWf :=
  queueWf_map (l := { l with tx := l.tx.filter (·.sending) }) (fun _ => rfl) (queueWf_filter _ h)

theorem queueWf_requeue {l : Line} (t : TxFrame) (h : l.queueWf) : (l.requeue t).queueWf := by
  unfold Line.requeue
  split
  · exact queueWf_filter _ h
  · exact queueWf_map (fun _ => rfl) h

theorem requeue_rx (l : Line) (t : TxFrame) : (l.requeue t).rx = l.rx := by
  unfold Line.requeue
  split <;> rfl

theorem requeue_spoilRun (l : Line) (t : TxFrame) : (l.requeue t).spoilRun = l.spoilRun := by
  unfold Line.requeue
  split <;> rfl

/-- Queue and FIFO are emptied (R177, R178). -/
theorem Acts.emptied (h : Acts may w0 w) (ok : .fifo ∈ may) :
    Acts may w0 { w with line := w.line.emptyQueue.emptyFifo } :=
  h.line _ queueWf_emptyQueue (fun c => ⟨Nat.zero_le _, c.2⟩) (fun _ _ hf => absurd hf List.not_mem_nil) (Or.inl ok)

/-- The head of the FIFO is taken (R168). -/
theorem Acts.taken (h : Acts may w0 w) {f : Frame} {rest : List Frame} (first : w.line.rx = f :: rest)
    (ok : .fifo ∈ may) : Acts may w0 { w with line := w.line.takeFrame rest } := by
  refine h.line _ id (fun c => ⟨?_, c.2⟩) (fun times x hx => times x ?_) (Or.inl ok)
  · have := c.1
    rw [first] at this
    exact (Nat.le_succ _).trans this
  · rw [first]
    exact List.mem_cons_of_mem _ hx

/-! ### Participation -/

theorem startReset_acts (all : ∀ p, p ∈ may) (n : Node) : Acts may n.ws (startReset n).ws := .reset all

theorem resetReleased_ws (node : Nat) (setB : Bool) (n : Node) : (resetReleased node setB n).ws = n.ws := by
  unfold resetReleased
  split <;> rfl

theorem enterListen_acts (n : Node) (h : Acts may w0 n.ws) : Acts may w0 (enterListen n).ws := by
  unfold enterListen
  dsimp only
  exact h.hand _ _ _

theorem isolationExpires_acts (n : Node) : Acts may n.ws (isolationExpires n).ws := by
  unfold isolationExpires
  split
  · dsimp only
    split
    · exact .refl
    · exact Acts.refl.hand _ _ _
  · exact .refl

theorem listenExpires_acts (n : Node) : Acts may n.ws (listenExpires n).ws := by
  unfold listenExpires
  split
  · exact Acts.refl.post _
  · exact .refl

theorem enterIsolated_acts (n : Node) (fifo : .fifo ∈ may) (view : .view ∈ may) (h : Acts may w0 n.ws) :
    Acts may w0 (enterIsolated n).ws := by
  unfold enterIsolated
  dsimp only
  refine ((h.emptied fifo).view [none, none, none, none] view (fun _ => rfl)).moves ?_
  exact Works.isolateZones_moves _ (Moves.foldl _ (fun _ _ => Works.isolateJob_moves _ _ .refl) _ .refl)

theorem isolationEnds_acts (n : Node) (ok : .faults ∈ may) (h : Acts may w0 n.ws) : Acts may w0 (isolationEnds n).ws := by
  unfold isolationEnds
  split
  · refine enterListen_acts _ ?_
    dsimp only
    exact h.faultEvent _ _ ok
  · exact h

theorem recoveryHeard_acts (n : Node) (ok : .faults ∈ may) (h : Acts may w0 n.ws) : Acts may w0 (recoveryHeard n).ws := by
  unfold recoveryHeard
  split
  · exact h
  · dsimp only
    exact h.faultEvent _ _ ok

theorem quietTaken_acts (n : Node) (h : Acts may w0 n.ws) : Acts may w0 (quietTaken n).ws := by
  unfold quietTaken
  split
  · exact h.moves (Works.post_moves _ (Works.quietJobs_moves _ .refl))
  · exact h

theorem wakeTaken_acts (n : Node) (h : Acts may w0 n.ws) : Acts may w0 (wakeTaken n).ws := by
  unfold wakeTaken
  split
  · exact h.post _
  · exact h

/-! ### The configuration image -/

theorem buildZone_lawful (zflt : List Bool) (zone : Nat) (outputs : List Nat) (n : Nat) :
    ((buildZone zflt zone outputs).wf ∧ (buildZone zflt zone outputs).timersExact)
      ∧ (buildZone zflt zone outputs).queueLaws n :=
  ZoneRec.lawful_empty rfl rfl rfl (Or.inl ⟨rfl, rfl⟩)

theorem buildZones_lawful (cfg : Loaded) (safe : Bool) (node : Nat) (zflt : List Bool) (n : Nat) :
    ZoneTable.wf { recs := buildZones cfg safe node zflt, arrivals := n } := by
  intro z hz
  simp only [buildZones] at hz
  split at hz
  · rw [List.mem_singleton.mp hz]
    exact buildZone_lawful _ _ _ _
  · obtain ⟨x, -, rfl⟩ := List.mem_map.mp hz
    exact buildZone_lawful _ _ _ _

theorem takeLevelField_bounds {v low high default : Nat} (hl : low ≤ default) (hh : default ≤ high) :
    low ≤ (takeLevelField v low high default).1 ∧ (takeLevelField v low high default).1 ≤ high := by
  unfold takeLevelField
  split
  · assumption
  · exact ⟨hl, hh⟩

/-- The default ambient of an output's level settings is in its range (R161). -/
theorem takeLevel_ambient (b : List Byte) (i : Nat) :
    40 ≤ (takeLevel b i).1.ambient ∧ (takeLevel b i).1.ambient ≤ 240 := by
  have bounds := takeLevelField_bounds (v := twoAt b (i + 7)) (low := 40) (high := 240) (default := 130)
    (by decide) (by decide)
  unfold takeLevel
  dsimp only
  split <;> exact bounds

/-- Every output taken from an image has the level settings of some entry. -/
theorem level_of_takeOutputs (b : List Byte) (named places : List Nat) (o : OutputCfg)
    (h : some o ∈ (takeOutputs b named places).1) : ∃ i, o.level = (takeLevel b i).1 := by
  induction places generalizing named with
  | nil => exact absurd h List.not_mem_nil
  | cons i rest ih =>
    unfold takeOutputs at h
    dsimp only at h
    split at h
    · exact ih _ (by simpa using h)
    · split at h
      · exact ih _ (by simpa using h)
      · rcases List.mem_cons.mp h with h | h
        · exact ⟨i, congrArg OutputCfg.level (Option.some.inj h)⟩
        · exact ih _ h

/-- Every configured output has a default ambient in range, whatever image is read. -/
theorem loadConfiguration_ambient (image : Option (List Byte)) (setB : Bool) (o : OutputCfg)
    (h : some o ∈ (loadConfiguration image setB).1.outputs) : 40 ≤ o.level.ambient ∧ o.level.ambient ≤ 240 := by
  have safe (h : some o ∈ (safeConfiguration setB).outputs) : 40 ≤ o.level.ambient ∧ o.level.ambient ≤ 240 := by
    simp [safeConfiguration] at h
  unfold loadConfiguration at h
  split at h
  · split at h
    · obtain ⟨i, hi⟩ := level_of_takeOutputs _ _ _ o h
      rw [hi]
      exact takeLevel_ambient _ _
    · exact safe h
  · exact safe h

theorem buildLevel_wf {s : LevelSettings} (now : Instant) (zone reading : Nat) (h : 40 ≤ s.ambient ∧ s.ambient ≤ 240) :
    (buildLevel now zone reading s).wf :=
  ⟨le_rfl, fun _ ha => absurd ha (Option.not_mem_none _), h⟩

theorem mem_of_configuredOutputs {cfg : Loaded} {x : Nat × OutputCfg} (h : x ∈ configuredOutputs cfg) :
    cfg.outputs[x.1]? = some (some x.2) := by
  obtain ⟨i, -, hi⟩ := List.mem_filterMap.mp h
  obtain ⟨o, found, rfl⟩ := Option.map_eq_some_iff.mp hi
  exact Option.join_eq_some_iff.mp found

theorem buildLevels_wf {cfg : Loaded} (safe : Bool) (node : Nat) (now : Instant)
    (h : ∀ o, some o ∈ cfg.outputs → 40 ≤ o.level.ambient ∧ o.level.ambient ≤ 240) :
    ∀ l ∈ buildLevels cfg safe node now, l.wf := by
  intro l hl
  simp only [buildLevels] at hl
  split at hl
  · rw [List.mem_singleton.mp hl]
    exact buildLevel_wf _ _ _ (by decide)
  · obtain ⟨x, hx, rfl⟩ := List.mem_map.mp hl
    exact buildLevel_wf _ _ _ (h _ (List.mem_of_getElem? (mem_of_configuredOutputs hx)))

/-- A change of the flash side that leaves the cache and the number of streams. -/
theorem Acts.flash (h : Acts may w0 w) (f : Flash) (cache : f.cache = w.flash.cache)
    (streams : f.streams.length = w.flash.streams.length) : Acts may w0 { w with flash := f } :=
  h.moves (Moves.refl.flash f cache streams)

theorem imageTaken_acts (image : Option (List Byte)) (n : Node) (ok : .faults ∈ may) :
    Acts may n.ws (imageTaken image n).ws := by
  unfold imageTaken
  split
  · dsimp only
    have ambient := loadConfiguration_ambient image n.env.part.setB
    generalize loadConfiguration image n.env.part.setB = loaded at ambient ⊢
    have zones := (Acts.refl (may := may) (w0 := n.ws)).zones
      { n.ws.zones with recs := buildZones loaded.1 loaded.2.2 n.env.part.node n.env.pins.zflt }
      (fun _ => buildZones_lawful _ _ _ _ _)
    have levels := zones.levels (buildLevels loaded.1 loaded.2.2 n.env.part.node n.env.now)
      (fun _ => buildLevels_wf _ _ _ ambient)
    refine enterListen_acts _ ?_
    dsimp only
    refine Acts.faultEvent ?_ _ _ ok
    refine Acts.bumpBy ?_ _ _
    exact levels.flash _ rfl (List.length_map _)
  · exact .refl

/-! ### Service reset (R178) -/

theorem handReleases_moves (e : Env) (h : Moves w0 w) : Moves w0 (w.handReleases e) := by
  unfold Works.handReleases
  split
  · exact h
  · exact Works.handAll_moves e _ h

/-- The Fetch Engine's service reset changes the cache and, of the tables, no size. -/
theorem resetAudio_acts (ok : .cache ∈ may) (h : Acts may w0 w) : Acts may w0 w.resetAudio := by
  have flash : Acts may w0 { w with flash := w.flash.serviceReset } :=
    (h.cache none ok).flash w.flash.serviceReset rfl (List.length_map _)
  refine flash.channels _ (fun channels streams => ?_)
  rw [List.length_zipWith]
  exact (congrArg₂ min streams channels).trans rfl

theorem serviceReset_acts (n : Node) (fifo : .fifo ∈ may) (view : .view ∈ may) (cache : .cache ∈ may)
    (counters : .counters ∈ may) (h : Acts may w0 n.ws) : Acts may w0 (serviceReset n).ws := by
  unfold serviceReset
  split
  · exact h
  · dsimp only
    have released : Acts may w0 (Works.handReleases n.env { n.ws with line := n.ws.line.emptyQueue.emptyFifo }) :=
      (h.emptied fifo).moves (handReleases_moves n.env .refl)
    have jobs := released.moves (w' := Works.resetJobs _) (Moves.refl.jobs _ (List.nil_sublist _))
    have zones := (resetAudio_acts cache jobs).moves (Works.resetZones_moves n.env .refl)
    have freed : Acts may w0 (Works.freeOwnTrunks n.env _) := zones.view _ view (fun four => by simpa using four)
    exact freed.counters counters

end Sys2Proof.Proofs.Effects
end


section
/-! What each command's effect does to the works, continued: the station line, clock, calls and faces, the flash, and the
table of what each command may change. -/

namespace Sys2Proof.Proofs.Effects

open Sys2Proof Sys2Proof.Machine

variable {may : List WorksPart} {w0 w : Works}

/-! ### Sending (R164 to R166) -/

theorem frameStarts_acts (rivals : List Nat) (n : Node) : Acts may n.ws (frameStarts rivals n).ws := by
  unfold frameStarts
  dsimp only
  split
  · exact .refl
  · rename_i head rest queue
    split
    · refine Acts.refl.lineKept _ (fun q => ?_) id rfl
      obtain ⟨length, order⟩ := q
      rw [queue] at length order
      obtain ⟨first, behind⟩ := List.pairwise_cons.mp order
      exact ⟨length, List.pairwise_cons.mpr ⟨first, behind⟩⟩
    · exact .refl

/-- What happens to a sent frame that ends spoiled, before the node's own entry to ISOLATED (R166). -/
theorem Acts.requeued (h : Acts may w0 w) (t : TxFrame) {left : Nat} (le : left ≤ w.line.ownSpoils) :
    Acts may w0 { w with line := { w.line.requeue t with ownSpoils := left } } := by
  refine h.lineKept _ (queueWf_requeue t) (fun c => ?_) (requeue_rx _ _)
  show (w.line.requeue t).rx.length ≤ rxCapacity ∧ (w.line.requeue t).spoilRun ≤ 16 ∧ left ≤ 8
  rw [requeue_rx, requeue_spoilRun]
  exact ⟨c.1, c.2.1, le.trans c.2.2⟩

theorem spoilsLeft_le (s : PState) (count : Nat) : spoilsLeft s count ≤ count := by
  unfold spoilsLeft
  split <;> omega

theorem ownFrameSpoiled_acts (agreed : Bool) (n : Node) (fifo : .fifo ∈ may) (view : .view ∈ may) (h : Acts may w0 n.ws) :
    Acts may w0 (ownFrameSpoiled agreed n).ws := by
  unfold ownFrameSpoiled
  split
  · exact h
  · dsimp only
    have counted : Acts may w0 (if agreed = true then (n.ws.compareCheck agreed).bump .spoils
        else n.ws.compareCheck agreed) := by
      split
      · exact (h.compareCheck agreed).bump _
      · exact h.compareCheck agreed
    rename_i t _
    generalize (if agreed = true then (n.ws.compareCheck agreed).bump .spoils else n.ws.compareCheck agreed) = ws
      at counted ⊢
    have requeued := counted.requeued t (spoilsLeft_le n.env.part.state _)
    split
    · exact enterIsolated_acts _ fifo view requeued
    · exact requeued

theorem ownFrameSent_acts (agreed : Bool) (n : Node) (h : Acts may w0 n.ws) : Acts may w0 (ownFrameSent agreed n).ws := by
  unfold ownFrameSent
  split
  · exact h
  · split
    · exact h
    · exact (h.compareCheck agreed).lineKept _ (queueWf_filter _) (fun c => ⟨c.1, c.2.1, le_rfl⟩) rfl

/-! ### Receiving (R168) -/

theorem twoBytes_lt {a b : Nat} (ha : a < 256) (hb : b < 256) : a * 256 + b < 65536 := by omega

/-- A decoded TIME frame carries a day and a second in range (Table 11-3). -/
theorem decodeTime_inRange {l : List Nat} (bytes : ∀ x ∈ l, x < 256) {p : Payload} (h : decodeTime l = some p) :
    ∃ day second, p = .time day second ∧ day < 65536 ∧ second < 86400 := by
  unfold decodeTime at h
  split at h
  · rename_i a b c d e
    split at h
    · rename_i second
      have day := twoBytes_lt (bytes a (by simp)) (bytes b (by simp))
      exact ⟨_, _, (Option.some.inj h).symm, day, second⟩
    · exact absurd h (by simp)
  · exact absurd h (by simp)

/-- No payload but TIME's own decodes to a TIME payload. -/
theorem kind_of_decodePayload_time {kind source : Nat} {l : List Nat} {day second : Nat}
    (h : decodePayload kind source l = some (.time day second)) : decodeTime l = some (.time day second) := by
  unfold decodePayload at h
  split at h
  case h_1 => exact h
  case h_5 | h_16 => simp at h
  all_goals
    simp only [decodeCall, decodeAnnounce, decodeControl, decodeProfile, decodeSeize, decodeFree, decodeZoneAsk,
      decodeZoneAnswer, decodeZoneRevoke, decodeZoneLeave, decodeJobReport, decodeFault, decodeStatus] at h
    repeat' split at h
    all_goals simp at h

theorem decodeFrame_timeInRange {bytes : List Byte} {f : Frame} (h : decodeFrame bytes = some f) : f.timeInRange := by
  unfold decodeFrame at h
  dsimp only at h
  split at h
  · exact absurd h (by simp)
  · obtain ⟨p, decoded, rfl⟩ := Option.map_eq_some_iff.mp h
    unfold Frame.timeInRange
    split
    · rename_i day second time
      have time : p = .time day second := time
      subst time
      obtain ⟨d, s, same, inRange⟩ := decodeTime_inRange (fun x hx => by
        obtain ⟨b, -, rfl⟩ := List.mem_map.mp hx
        exact b.isLt) (kind_of_decodePayload_time decoded)
      obtain ⟨rfl, rfl⟩ := Payload.time.inj same
      exact inRange
    · trivial

theorem filterFrame_acts (f : Frame) (n : Node) (inRange : f.timeInRange) (ok : .fifo ∈ may) (h : Acts may w0 n.ws) :
    Acts may w0 (filterFrame f n).ws := by
  unfold filterFrame
  split
  · exact h
  · split
    · exact h
    · split
      · exact h.bump _
      · split
        · exact h.bump _
        · rename_i room
          refine h.line _ id (fun c => ⟨?_, c.2⟩) (fun times x hx => ?_) (Or.inl ok)
          · rw [List.length_append]
            exact Nat.lt_of_not_le room
          · rcases List.mem_append.mp hx with hx | hx
            · exact times x hx
            · exact List.mem_singleton.mp hx ▸ inRange

theorem frameReceived_acts (bytes : List Byte) (spoiled : Bool) (n : Node) (fifo : .fifo ∈ may) (view : .view ∈ may) :
    Acts may n.ws (frameReceived bytes spoiled n).ws := by
  unfold frameReceived
  split
  · exact .refl
  · split
    · split
      · exact ownFrameSpoiled_acts _ _ fifo view .refl
      · exact ownFrameSent_acts _ _ .refl
    · have heard : Acts may n.ws (n.ws.compareCheck (frameGood bytes)) := Acts.refl.compareCheck _
      dsimp only
      split
      · exact heard
      · split
        · exact heard.bump _
        · unfold goodFrame
          split
          · exact heard
          · split
            · exact heard.bump _
            · rename_i decoded
              exact filterFrame_acts _ _ (decodeFrame_timeInRange decoded) fifo heard

/-! ### Trunk view and echoes (R131, R132, R136) -/

theorem Acts.setTrunk (h : Acts may w0 w) (t : Nat) (x : Option TrunkHold) (ok : .view ∈ may) :
    Acts may w0 (w.setTrunk t x) := h.view _ ok (fun four => by simpa using four)

theorem applySeize_acts (e : Env) (source trunk tag hold : Nat) (ok : .view ∈ may) (h : Acts may w0 w) :
    Acts may w0 (w.applySeize e source trunk tag hold) := by
  unfold Works.applySeize
  split
  · exact h.setTrunk _ _ ok
  · exact h

theorem applyFree_acts (e : Env) (source trunk : Nat) (ok : .view ∈ may) (h : Acts may w0 w) :
    Acts may w0 (w.applyFree e source trunk) := by
  unfold Works.applyFree
  split
  · split
    · exact (h.setTrunk _ _ ok).moves (Works.viewFreed_moves e .refl)
    · exact h
  · exact h

theorem viewExpires_acts (e : Env) (trunk : Nat) (ok : .view ∈ may) (h : Acts may w0 w) :
    Acts may w0 (w.viewExpires e trunk) := by
  unfold Works.viewExpires
  split
  · exact (h.setTrunk _ _ ok).moves (Works.viewFreed_moves e .refl)
  · exact h

/-- After the view has taken the SEIZE its echo only moves the works (R136). -/
theorem seizeEchoed_moves (e : Env) (f : Frame) (trunk tag hold : Nat) (w : Works) :
    Moves (w.applySeize e f.source trunk tag hold) (w.seizeEchoed e f trunk tag hold) := by
  unfold Works.seizeEchoed
  dsimp only
  split
  · split
    · exact Works.hand_moves e _ _ .refl
    · exact .refl
  · split
    · split
      · exact Works.chooseTrunk_moves e _ (Works.hand_moves e _ _ (Works.modGather_moves _ _ .refl))
      · exact Works.startRound_moves e _ (Works.setJobTrunk_moves _ _ (Works.modGather_moves _ _ .refl))
    · exact Works.chooseTrunk_moves e _ (Works.modGather_moves _ _ .refl)

theorem seizeEchoed_acts (e : Env) (f : Frame) (trunk tag hold : Nat) (ok : .view ∈ may) (h : Acts may w0 w) :
    Acts may w0 (w.seizeEchoed e f trunk tag hold) :=
  (applySeize_acts e f.source trunk tag hold ok h).moves (seizeEchoed_moves e f trunk tag hold w)

/-- The echoes that touch the trunk view are those of SEIZE and FREE, and those that touch the fault set of PROFILE. -/
theorem echoEffect_acts (x : EchoPlace) (n : Node)
    (view : .view ∈ may ∨ ∀ trunk tag hold, x.frame.payload ≠ .seize trunk tag hold ∧ x.frame.payload ≠ .free trunk tag)
    (faults : .faults ∈ may ∨ ∀ b, x.frame.payload ≠ .profile b) (h : Acts may w0 n.ws) :
    Acts may w0 (echoEffect x n).ws := by
  unfold echoEffect
  split
  · rename_i trunk tag hold same
    exact seizeEchoed_acts _ _ _ _ _ (view.resolve_right (fun other => (other trunk tag hold).1 same)) h
  · rename_i trunk tag same
    exact applyFree_acts _ _ _ (view.resolve_right (fun other => (other trunk tag 0).2 same)) h
  · exact h.moves (Works.startAnswers_moves _ _ _ .refl)
  · rename_i b same _
    exact isolationEnds_acts _ (faults.resolve_right (fun other => other b same)) h
  · rename_i b same _
    exact recoveryHeard_acts _ (faults.resolve_right (fun other => other b same)) h
  · exact h

theorem deliverEcho_acts (wanted : EchoPlace → Bool) (n : Node)
    (view : .view ∈ may ∨ ∀ x, wanted x = true →
      ∀ trunk tag hold, x.frame.payload ≠ .seize trunk tag hold ∧ x.frame.payload ≠ .free trunk tag)
    (faults : .faults ∈ may ∨ ∀ x, wanted x = true → ∀ b, x.frame.payload ≠ .profile b) :
    Acts may n.ws (deliverEcho wanted n).ws := by
  unfold deliverEcho
  split
  · exact .refl
  · rename_i x _
    split
    · rename_i due
      exact echoEffect_acts x _ (view.imp_right (fun o => o x due.2)) (faults.imp_right (fun o => o x due.2))
        (Acts.refl.lineKept _ id id rfl)
    · exact .refl

theorem payload_of_isSeize {x : EchoPlace} (h : x.isSeize = true) : ∃ k t d, x.frame.payload = .seize k t d := by
  unfold EchoPlace.isSeize at h
  split at h
  · exact ⟨_, _, _, by assumption⟩
  · exact absurd h (by simp)

theorem payload_of_isZoneAsk {x : EchoPlace} (h : x.isZoneAsk = true) : ∃ k t d l, x.frame.payload = .zoneAsk k t d l := by
  unfold EchoPlace.isZoneAsk at h
  split at h
  · exact ⟨_, _, _, _, by assumption⟩
  · exact absurd h (by simp)

theorem payload_of_isProfile {x : EchoPlace} (h : x.isProfile = true) : ∃ b, x.frame.payload = .profile b := by
  unfold EchoPlace.isProfile at h
  split at h
  · exact ⟨_, by assumption⟩
  · exact absurd h (by simp)

/-! ### Frames taken from the receive FIFO (R168) -/

theorem takeFrom_acts (act : Frame → Option (Node → Node)) (n : Node) (ok : .fifo ∈ may)
    (acts : ∀ f g, act f = some g → ∀ m : Node, Acts may n.ws m.ws → Acts may n.ws (g m).ws) :
    Acts may n.ws (takeFrom act n).ws := by
  unfold takeFrom
  split
  · exact .refl
  · rename_i f rest first
    split
    · exact .refl
    · split
      · exact .refl
      · rename_i g taken
        exact acts f g taken _ (Acts.refl.taken first ok)

/-! ### Clock, calls and faces -/

@[simp] theorem finishWork_ws (notices : List Note) (own : List JobRequest) (faces slots : List Nat) (delayed : Option Nat)
    (n : Node) : ∃ ns, (finishWork notices own faces slots delayed n).ws = n.ws.postAll ns := ⟨_, rfl⟩

theorem finishWork_moves (notices : List Note) (own : List JobRequest) (faces slots : List Nat) (delayed : Option Nat)
    (n : Node) (h : Moves w0 n.ws) : Moves w0 (finishWork notices own faces slots delayed n).ws :=
  Works.postAll_moves _ h

theorem takeNew_moves (slot : Nat) (b : CallBody) (old : Option Nat) (notices : List Note) (faces : List Nat) (n : Node)
    (h : Moves w0 n.ws) : Moves w0 (takeNew slot b old notices faces n).ws := finishWork_moves _ _ _ _ _ _ h

theorem findSlot_moves (b : CallBody) (n : Node) (h : Moves w0 n.ws) : Moves w0 (findSlot b n).ws := by
  unfold findSlot
  split
  · exact takeNew_moves _ _ _ _ _ _ h
  · split
    · exact takeNew_moves _ _ _ _ _ _ (h.bump _)
    · dsimp only
      split
      · split
        · exact takeNew_moves _ _ _ _ _ _ (h.bump _)
        · exact h.bump _
      · exact h.bump _

theorem takeUnheld_moves (b : CallBody) (n : Node) (h : Moves w0 n.ws) : Moves w0 (takeUnheld b n).ws := by
  unfold takeUnheld
  split
  · exact h
  · exact findSlot_moves b n h

theorem takeHeld_moves (slot : Nat) (c : CallRec) (b : CallBody) (n : Node) (h : Moves w0 n.ws) :
    Moves w0 (takeHeld slot c b n).ws := by
  unfold takeHeld
  split
  · exact h.bump _
  · exact h.bump _
  · split
    · split
      · exact finishWork_moves _ _ _ _ _ _ h
      · split
        · exact finishWork_moves _ _ _ _ _ _ h
        · split
          · exact finishWork_moves _ _ _ _ _ _ h
          · exact finishWork_moves _ _ _ _ _ _ h
    · split
      · exact takeNew_moves _ _ _ _ _ _ h
      · exact h.bump _

theorem takeCall_moves (b : CallBody) (n : Node) (h : Moves w0 n.ws) : Moves w0 (takeCall b n).ws := by
  unfold takeCall
  split
  · exact h.bump _
  · split
    · exact h.bump _
    · split
      · exact takeUnheld_moves b n h
      · split
        · exact takeHeld_moves _ _ b n h
        · split
          · exact h.bump _
          · exact takeUnheld_moves b _ h

theorem clockPass_moves (window : Bool) (n : Node) (h : Moves w0 n.ws) : Moves w0 (clockPass window n).ws :=
  finishWork_moves _ _ _ _ _ _ h

theorem tickHappens_acts (n : Node) : Acts may n.ws (tickHappens n).ws := by
  unfold tickHappens
  split
  · exact Acts.refl.moves (Works.post_moves _ (clockPass_moves _ { n with env := _ } .refl))
  · exact .refl

theorem takeTime_acts (day second : Nat) (n : Node) (ok : .faults ∈ may) (h : Acts may w0 n.ws) :
    Acts may w0 (takeTime day second n).ws := by
  unfold takeTime
  dsimp only
  refine Acts.post (Acts.trans ?_ (Acts.refl.moves (clockPass_moves _ _ .refl))) _
  dsimp only
  split
  · exact h
  · exact (h.faultEvent _ _ ok).moves (Works.fixDays_moves _ .refl)

theorem presenceChanges_ws (position : Nat) (level : Bool) (n : Node) : (presenceChanges position level n).ws = n.ws := by
  unfold presenceChanges
  split <;> rfl

theorem presenceRises_moves (f : FaceRec) (n : Node) (h : Moves w0 n.ws) : Moves w0 (presenceRises f n).ws := by
  unfold presenceRises
  split
  · exact finishWork_moves _ _ _ _ _ _ (h.bump _)
  · split
    · exact h
    · exact finishWork_moves _ _ _ _ _ _ h

theorem presenceFalls_moves (f : FaceRec) (n : Node) (h : Moves w0 n.ws) : Moves w0 (presenceFalls f n).ws := by
  unfold presenceFalls
  split
  · exact h.bump _
  · split
    · exact h.bump _
    · exact finishWork_moves _ _ _ _ _ _ h

theorem debounceExpires_moves (position : Nat) (n : Node) (h : Moves w0 n.ws) : Moves w0 (debounceExpires position n).ws := by
  unfold debounceExpires
  split
  · exact h
  · split
    · exact h
    · dsimp only
      split
      · exact presenceRises_moves _ _ h
      · exact presenceFalls_moves _ _ h

theorem retentionExpires_ws (slot : Nat) (n : Node) : (retentionExpires slot n).ws = n.ws := by
  unfold retentionExpires
  split
  · split <;> rfl
  · rfl

theorem dwellExpires_moves (slot : Nat) (n : Node) (h : Moves w0 n.ws) : Moves w0 (dwellExpires slot n).ws := by
  unfold dwellExpires
  split
  · exact h
  · split
    · exact finishWork_moves _ _ _ _ _ _ h
    · exact h

theorem triggerEdge_acts (input : Nat) (level : Bool) (n : Node) : Acts may n.ws (triggerEdge input level n).ws := by
  unfold triggerEdge
  split
  · exact .refl
  · dsimp only
    split
    · exact .refl
    · split
      · exact Acts.refl.settles (Works.triggerRises_settles _ _ .refl)
      · exact Acts.refl.moves (Works.triggerFalls_moves _ _ .refl)

/-! ### PROFILE (R170) -/

theorem takeProfile_acts (source : Nat) (b : ProfileBody) (n : Node) (h : Acts may w0 n.ws) :
    Acts may w0 (takeProfile source b n).ws := by
  unfold takeProfile
  dsimp only
  split
  · exact (h.bumpBy _ _).hand _ _ _
  · exact h.bumpBy _ _

/-! ### Flash and playout -/

theorem Acts.freePort (h : Acts may w0 w) : Acts may w0 w.freePort := h.moves (Works.freePort_moves .refl)

theorem audioComplete_acts (e : Env) (data : Option (List Byte)) (ok : .faults ∈ may) (h : Acts may w0 w) :
    Acts may w0 (w.audioComplete e data) := by
  unfold Works.audioComplete
  split
  · rename_i n _
    unfold Works.audioRead
    dsimp only
    have faulted := h.freePort.faultEvent e (fun f => { f with flashPort := data.isNone }) ok
    refine faulted.moves (Works.fetchChanged_moves n ?_)
    split
    · exact Works.streamSettled_moves e _ .refl
    · split
      · split
        · exact Works.takeAudio_moves _ _ _ _ e (Works.modStream_moves _ _ .refl)
        · exact Works.failCurrent_moves _ _ (Works.modStream_moves _ _ .refl)
      · exact Works.modStream_moves _ _ .refl
  · exact h

theorem templateRead_acts (e : Env) (data : Option (List Byte)) (ok : .faults ∈ may) (h : Acts may w0 w) :
    Acts may w0 (w.templateRead e data) := by
  unfold Works.templateRead
  split
  · dsimp only
    have faulted := h.freePort.faultEvent e (fun f => { f with flashPort := data.isNone }) ok
    refine faulted.moves (Works.post_moves _ ?_)
    split
    · exact Works.expandJob_moves e _ _ .refl
    · exact Works.bindingPortFault_moves e _ .refl
    · exact .refl
  · exact h

theorem directoryRead_acts (e : Env) (data : Option (List Byte)) (faults : .faults ∈ may) (cache : .cache ∈ may)
    (h : Acts may w0 w) : Acts may w0 (w.directoryRead e data) := by
  unfold Works.directoryRead
  split
  · dsimp only
    have faulted := h.freePort.faultEvent e (fun f => { f with flashPort := data.isNone }) faults
    rename_i block _ _
    refine (faulted.cache (data.map (fun bytes => (block, bytes))) cache).moves (Works.post_moves _ ?_)
    split
    · exact Works.continueBinding_moves e _ .refl
    · exact Works.bindingPortFault_moves e _ .refl
    · exact .refl
  · exact h

theorem noResponse_acts (e : Env) (faults : .faults ∈ may) (cache : .cache ∈ may) (h : Acts may w0 w) :
    Acts may w0 (w.noResponse e) := by
  unfold Works.noResponse
  split
  · exact h
  · exact audioComplete_acts e _ faults h
  · exact templateRead_acts e _ faults h
  · exact directoryRead_acts e _ faults cache h

theorem samplePeriod_moves (carrier : List Bool) (n : Node) : Moves n.ws (samplePeriod carrier n).ws :=
  Works.period_moves _ (Works.period_moves _ .refl)

theorem gapSilenceEnds_moves (ch : Nat) (n : Node) : Moves n.ws (gapSilenceEnds ch n).ws := by
  unfold gapSilenceEnds
  split
  · exact Works.silentEntryEnds_moves _ _ .refl
  · exact .refl

theorem underrunReached_moves (ch : Nat) (n : Node) : Moves n.ws (underrunReached ch n).ws := by
  unfold underrunReached
  dsimp only
  split
  · exact Works.starve_moves _ _ .refl
  · exact .refl

theorem stallReached_moves (ch : Nat) (n : Node) : Moves n.ws (stallReached ch n).ws := by
  unfold stallReached
  dsimp only
  split
  · exact Works.starve_moves _ _ .refl
  · exact .refl

/-! ### Zones and levels -/

theorem lineFaultChanges_acts (output : Nat) (level : Bool) (n : Node) (ok : .faults ∈ may) :
    Acts may n.ws (lineFaultChanges output level n).ws := by
  unfold lineFaultChanges
  dsimp only
  refine Acts.faultEvent (Acts.refl.zones _ (fun wf z hz => ?_)) _ _ ok
  obtain ⟨x, hx, rfl⟩ := List.mem_map.mp hz
  exact wf x hx

/-- A good reading keeps an entry's bounds (R157). -/
theorem good_wf {r : Nat} {l : LevelEntry} (low : 40 ≤ r) (high : r ≤ 240) (wf : l.wf) : (l.good r).wf := by
  have fresh : 320 ≤ 8 * r ∧ 8 * r ≤ 1920 := by omega
  have started (b : Nat) (hb : b ∈ some (8 * r)) : 320 ≤ b ∧ b ≤ 1920 := Option.mem_some.mp hb ▸ fresh
  unfold LevelEntry.good
  split
  · refine ⟨wf.1, fun b hb => ?_, wf.2.2⟩
    have ambient : 320 ≤ l.effectiveAmbient ∧ l.effectiveAmbient ≤ 1920 := by
      unfold LevelEntry.effectiveAmbient
      cases estimate : l.estimate with
      | none => exact l.default_bounds wf
      | some a => exact wf.2.1 a estimate
    exact Option.mem_some.mp hb ▸ LevelControl.smoothed_bounds ambient.1 ambient.2 low high
  · exact ⟨wf.1, started, wf.2.2⟩
  · exact ⟨wf.1, started, wf.2.2⟩
  · exact wf
  · exact wf

/-- A sensor fault keeps an entry's bounds (R158). -/
theorem faulted_wf {l : LevelEntry} (wf : l.wf) : l.faulted.wf := by
  unfold LevelEntry.faulted
  split
  · exact wf
  · exact ⟨wf.1, fun b hb => Option.mem_some.mp hb ▸ l.default_bounds wf, wf.2.2⟩
  · exact wf

theorem reads_wf (now : Instant) (result : Option Nat) {l : LevelEntry} (wf : l.wf) : (l.reads now result).wf := by
  cases result with
  | none => exact wf
  | some r =>
    simp only [LevelEntry.reads]
    split
    · rename_i inRange
      exact good_wf inRange.1 inRange.2 wf
    · exact faulted_wf (l := { l with silence := now + sec 10 }) wf

/-- Level entries replaced by entries that keep their bounds, and the SENSOR conditions. -/
theorem Acts.setLevels (h : Acts may w0 w) (e : Env) (g : LevelEntry → LevelEntry) (wf : ∀ l, l.wf → (g l).wf)
    (ok : .faults ∈ may) : Acts may w0 (w.setLevels e (w.levels.map g)) := by
  refine Acts.faultEvent (h.levels _ (fun all l hl => ?_)) _ _ ok
  obtain ⟨x, hx, rfl⟩ := List.mem_map.mp hl
  exact wf x (all x hx)

theorem readFrom_acts (e : Env) (readings : List (Option Nat)) (position : Nat) (ok : .faults ∈ may) (h : Acts may w0 w) :
    Acts may w0 (w.readFrom e position readings) := by
  induction readings generalizing position w with
  | nil => exact h
  | cons result rest ih =>
    refine ih (position + 1) (h.setLevels e _ (fun l wf => ?_) ok)
    split
    · exact reads_wf _ _ wf
    · exact wf

theorem ambientReadings_acts (readings : List (Option Nat)) (n : Node) (ok : .faults ∈ may) :
    Acts may n.ws (ambientReadings readings n).ws := by
  unfold ambientReadings
  split
  · exact .refl
  · exact readFrom_acts _ _ _ ok .refl

theorem silenceExpires_acts (zone : Nat) (n : Node) (ok : .faults ∈ may) : Acts may n.ws (silenceExpires zone n).ws := by
  unfold silenceExpires
  split
  · exact .refl
  · refine Acts.refl.setLevels _ _ (fun l wf => ?_) ok
    split
    · exact faulted_wf wf
    · exact wf

theorem releaseExpires_moves (zone : Nat) (n : Node) : Moves n.ws (releaseExpires zone n).ws := by
  refine Works.modLevel_moves zone _ (fun l => ?_) .refl
  split
  · exact l.openHold_wf
  · exact ⟨id, rfl⟩

/-! ### The table of the commands -/

/-- The parts of the works each command may change beside what settling changes (95_what_each_step_holds.md). -/
def touches : Instr → List WorksPart
  | .startReset => [.fifo, .view, .faults, .cache, .counters]
  | .srvPulse | .serviceReset => [.fifo, .view, .cache, .counters]
  | .configImageTaken _ | .isolationProfileEcho | .profileEcho | .templateReadComplete _ | .audioReadComplete _
  | .lineFaultInputChange _ _ | .ambientReadingCycle _ | .silenceTimerExpiry _ => [.faults]
  | .ownFrameSpoiled _ | .frameReceived _ _ | .seize | .free => [.fifo, .view]
  | .echo => [.view, .faults]
  | .seizeEcho | .trunkViewExpiry _ => [.view]
  | .time => [.fifo, .faults]
  | .quiet | .wake | .replayLast | .call | .announce | .statusQuery | .profile | .zoneAsk | .zoneLeave | .zoneAnswer
  | .zoneRevoke => [.fifo]
  | .directoryReadComplete _ | .flashReadNoResponse => [.faults, .cache]
  | _ => []

end Sys2Proof.Proofs.Effects
end


section
/-! The table holds for every command; the invariants of the works and the frames of its parts follow from it. -/

namespace Sys2Proof.Proofs.Effects

open Sys2Proof Sys2Proof.Machine

/-- An effect on the works alone that is a move. -/
theorem Acts.ofMoves {may : List WorksPart} {w w' : Works} (h : Moves w w') : Acts may w w' := Acts.refl.moves h

theorem all_touched (p : WorksPart) : p ∈ [WorksPart.fifo, .view, .faults, .cache, .counters] := by
  cases p <;> decide

/-! ### The acts on a taken frame -/

theorem actTime_acts {may : List WorksPart} {w0 : Works} (ok : .faults ∈ may) {f : Frame} {g : Node → Node}
    (taken : actTime f = some g) (m : Node) (h : Acts may w0 m.ws) : Acts may w0 (g m).ws := by
  unfold actTime at taken
  split at taken
  · obtain rfl := Option.some.inj taken
    exact takeTime_acts _ _ m ok h
  · exact absurd taken (by simp)

theorem actServiceReset_acts {may : List WorksPart} {w0 : Works} (fifo : .fifo ∈ may) (view : .view ∈ may)
    (cache : .cache ∈ may) (counters : .counters ∈ may) {f : Frame} {g : Node → Node} (taken : actServiceReset f = some g) (m : Node) (h : Acts may w0 m.ws) : Acts may w0 (g m).ws := by
  unfold actServiceReset at taken
  split at taken
  · obtain rfl := Option.some.inj taken
    dsimp only
    split
    · exact serviceReset_acts m fifo view cache counters h
    · exact h
  · exact absurd taken (by simp)

theorem actSeize_acts {may : List WorksPart} {w0 : Works} (ok : .view ∈ may) {f : Frame} {g : Node → Node}
    (taken : actSeize f = some g) (m : Node) (h : Acts may w0 m.ws) : Acts may w0 (g m).ws := by
  unfold actSeize at taken
  split at taken
  · obtain rfl := Option.some.inj taken
    exact applySeize_acts _ _ _ _ _ ok h
  · exact absurd taken (by simp)

theorem actFree_acts {may : List WorksPart} {w0 : Works} (ok : .view ∈ may) {f : Frame} {g : Node → Node}
    (taken : actFree f = some g) (m : Node) (h : Acts may w0 m.ws) : Acts may w0 (g m).ws := by
  unfold actFree at taken
  split at taken
  · obtain rfl := Option.some.inj taken
    exact applyFree_acts _ _ _ ok h
  · exact absurd taken (by simp)

/-- The acts whose effect is a move of the works, or a job created. -/
theorem settlingAct_acts {may : List WorksPart} {w0 : Works} {act : Frame → Option (Node → Node)}
    (listed : act ∈ [actCall, actAnnounce, actQuiet, actWake, actReplayLast, actStatusQuery, actProfile, actZoneAsk,
      actZoneLeave, actZoneAnswer, actZoneRevoke]) {f : Frame} {g : Node → Node}
    (taken : act f = some g) (m : Node) (h : Acts may w0 m.ws) : Acts may w0 (g m).ws := by
  simp only [List.mem_cons, List.not_mem_nil, or_false] at listed
  rcases listed with rfl | rfl | rfl | rfl | rfl | rfl | rfl | rfl | rfl | rfl | rfl
  · unfold actCall at taken
    split at taken <;> [obtain rfl := Option.some.inj taken; cases taken]
    exact h.moves (takeCall_moves _ m .refl)
  · unfold actAnnounce at taken
    split at taken <;> [obtain rfl := Option.some.inj taken; cases taken]
    exact h.settles (Works.announce_settles _ _ _ .refl)
  · unfold actQuiet at taken
    split at taken <;> [obtain rfl := Option.some.inj taken; cases taken]
    exact quietTaken_acts m h
  · unfold actWake at taken
    split at taken <;> [obtain rfl := Option.some.inj taken; cases taken]
    exact wakeTaken_acts m h
  · unfold actReplayLast at taken
    split at taken <;> [obtain rfl := Option.some.inj taken; cases taken]
    exact h.settles (Works.replayLast_settles _ _ .refl)
  · unfold actStatusQuery at taken
    split at taken <;> [obtain rfl := Option.some.inj taken; cases taken]
    exact h.hand _ _ _
  · unfold actProfile at taken
    split at taken <;> [obtain rfl := Option.some.inj taken; cases taken]
    exact takeProfile_acts _ _ m h
  · unfold actZoneAsk at taken
    split at taken <;> [obtain rfl := Option.some.inj taken; cases taken]
    exact h.moves (Works.askFrame_moves _ _ _ _ _ _ .refl)
  · unfold actZoneLeave at taken
    split at taken <;> [obtain rfl := Option.some.inj taken; cases taken]
    exact h.moves (Works.leaveFrame_moves _ _ _ _ .refl)
  · unfold actZoneAnswer at taken
    split at taken <;> [obtain rfl := Option.some.inj taken; cases taken]
    exact h.moves (Works.answerFrame_moves _ _ _ _ .refl)
  · unfold actZoneRevoke at taken
    split at taken <;> [obtain rfl := Option.some.inj taken; cases taken]
    exact h.moves (Moves.foldl _ (fun _ _ => Works.takeRevocation_moves _ _ _ _ .refl) _ .refl)

/-! ### Every command -/

/-- Every command changes the parts that the table names, and otherwise only what settling changes. -/
theorem effect_acts (c : Instr) (n : Node) : Acts (touches c) n.ws (effect c n).ws := by
  have fifo : WorksPart.fifo ∈ [WorksPart.fifo] := List.mem_singleton.mpr rfl
  have settling {act : Frame → Option (Node → Node)} (listed : act ∈ [actCall, actAnnounce, actQuiet, actWake,
      actReplayLast, actStatusQuery, actProfile, actZoneAsk, actZoneLeave, actZoneAnswer, actZoneRevoke]) :
      Acts [.fifo] n.ws (takeFrom act n).ws :=
    takeFrom_acts act n fifo (fun _ _ taken m h => settlingAct_acts listed taken m h)
  cases c with
  | startReset => exact startReset_acts all_touched n
  | resetRelease node setB => exact resetReleased_ws node setB n ▸ .refl
  | configImageTaken image => exact imageTaken_acts image n (by simp [touches])
  | srvPulse => exact serviceReset_acts n (by simp [touches]) (by simp [touches]) (by simp [touches]) (by simp [touches]) .refl
  | listenTimerExpiry => exact listenExpires_acts n
  | isolationTimerExpiry => exact isolationExpires_acts n
  | frameStart rivals => exact frameStarts_acts rivals n
  | ownFrameSpoiled agreed => exact ownFrameSpoiled_acts agreed n (by simp [touches]) (by simp [touches]) .refl
  | ownFrameSent agreed => exact ownFrameSent_acts agreed n .refl
  | frameReceived bytes spoiled => exact frameReceived_acts bytes spoiled n (by simp [touches]) (by simp [touches])
  | echo => exact deliverEcho_acts _ n (Or.inl (by simp [touches])) (Or.inl (by simp [touches]))
  | seizeEcho =>
    refine deliverEcho_acts _ n (Or.inl (by simp [touches])) (Or.inr (fun x seize b profile => ?_))
    obtain ⟨_, _, _, same⟩ := payload_of_isSeize seize
    exact absurd (same.symm.trans profile) (by simp)
  | zoneAskEcho =>
    refine deliverEcho_acts _ n (Or.inr (fun x ask trunk tag hold => ?_)) (Or.inr (fun x ask b => ?_))
    all_goals
      obtain ⟨_, _, _, _, same⟩ := payload_of_isZoneAsk ask
      simp [same]
  | isolationProfileEcho =>
    refine deliverEcho_acts _ n (Or.inr (fun x profile trunk tag hold => ?_)) (Or.inl (by simp [touches]))
    obtain ⟨_, same⟩ := payload_of_isProfile (Bool.and_eq_true_iff.mp profile).1
    simp [same]
  | profileEcho =>
    refine deliverEcho_acts _ n (Or.inr (fun x profile trunk tag hold => ?_)) (Or.inl (by simp [touches]))
    obtain ⟨_, same⟩ := payload_of_isProfile (Bool.and_eq_true_iff.mp profile).1
    simp [same]
  | time => exact takeFrom_acts _ n (by simp [touches]) (fun _ _ taken m h => actTime_acts (by simp [touches]) taken m h)
  | call => exact settling (by simp)
  | announce => exact settling (by simp)
  | quiet => exact settling (by simp)
  | wake => exact settling (by simp)
  | serviceReset =>
    exact takeFrom_acts _ n (by simp [touches]) (fun _ _ taken m h => actServiceReset_acts (by simp [touches])
      (by simp [touches]) (by simp [touches]) (by simp [touches]) taken m h)
  | replayLast => exact settling (by simp)
  | statusQuery => exact settling (by simp)
  | profile => exact settling (by simp)
  | seize => exact takeFrom_acts _ n (by simp [touches]) (fun _ _ taken m h => actSeize_acts (by simp [touches]) taken m h)
  | free => exact takeFrom_acts _ n (by simp [touches]) (fun _ _ taken m h => actFree_acts (by simp [touches]) taken m h)
  | zoneAsk => exact settling (by simp)
  | zoneLeave => exact settling (by simp)
  | zoneAnswer => exact settling (by simp)
  | zoneRevoke => exact settling (by simp)
  | tick => exact tickHappens_acts n
  | retentionTimerExpiry slot => exact retentionExpires_ws slot n ▸ .refl
  | dwellTimerExpiry slot => exact .ofMoves (dwellExpires_moves slot n .refl)
  | presenceInputChange position level => exact presenceChanges_ws position level n ▸ .refl
  | debounceTimerExpiry position => exact .ofMoves (debounceExpires_moves position n .refl)
  | triggerRisingEdge input => exact triggerEdge_acts input true n
  | triggerFallingEdge input => exact triggerEdge_acts input false n
  | retryTimerExpiry tag => exact .ofMoves (Works.retryExpires_moves _ _ .refl)
  | gapTimerExpiry tag => exact .ofMoves (Works.gapExpires_moves _ _ .refl)
  | templateReadComplete data => exact templateRead_acts _ _ (by simp [touches]) .refl
  | directoryReadComplete data => exact directoryRead_acts _ _ (by simp [touches]) (by simp [touches]) .refl
  | audioReadComplete data => exact audioComplete_acts _ _ (by simp [touches]) .refl
  | flashReadNoResponse => exact noResponse_acts _ (by simp [touches]) (by simp [touches]) .refl
  | samplePeriod carrier => exact .ofMoves (samplePeriod_moves carrier n)
  | gapSilenceEnd channel => exact .ofMoves (gapSilenceEnds_moves channel n)
  | underrun channel => exact .ofMoves (underrunReached_moves channel n)
  | stall channel => exact .ofMoves (stallReached_moves channel n)
  | settleTimerExpiry zone => exact .ofMoves (Works.settleExpires_moves _ _ .refl)
  | holdTimerExpiry zone => exact .ofMoves (Works.holdExpires_moves _ _ .refl)
  | expiryTimerExpiry zone => exact .ofMoves (Works.holderExpires_moves _ _ .refl)
  | waitTimerExpiry zone node tag => exact .ofMoves (Works.waitExpires_moves _ _ _ _ .refl)
  | lineFaultInputChange output level => exact lineFaultChanges_acts output level n (by simp [touches])
  | trunkViewExpiry trunk => exact viewExpires_acts _ _ (by simp [touches]) .refl
  | trunkWaitTimerExpiry tag => exact .ofMoves (Works.trunkWaitEnds_moves _ _ .refl)
  | answerTimerExpiry tag home => exact .ofMoves (Works.answerExpires_moves _ _ _ .refl)
  | gatherTimerExpiry tag => exact .ofMoves (Works.gatherExpires_moves _ _ .refl)
  | readyTimerExpiry tag => exact .ofMoves (Works.readyExpires_moves _ _ .refl)
  | startTimerExpiry tag => exact .ofMoves (Works.startExpires_moves _ _ .refl)
  | backoffTimerExpiry tag => exact .ofMoves (Works.backoffExpires_moves _ _ .refl)
  | ambientReadingCycle readings => exact ambientReadings_acts readings n (by simp [touches])
  | silenceTimerExpiry zone => exact silenceExpires_acts zone n (by simp [touches])
  | releaseTimerExpiry zone => exact .ofMoves (releaseExpires_moves zone n)

/-- A command changes the works by what the table allows it. -/
theorem exec_acts {c : Instr} {s t : State} (h : exec c s = .next t) : Acts (touches c) s.ws t.ws :=
  (effect_acts c s.node).settles (settles_of_exec h)

/-- A step is a command, or leaves the works alone. -/
theorem step_acts {s t : State} (h : step s = .next t) : ∃ may, Acts may s.ws t.ws := by
  unfold step at h
  split at h
  · obtain rfl := Host.Outcome.next.inj h
    refine ⟨[], ?_⟩
    unfold idle
    split <;> exact .refl
  · rename_i c rest _
    exact ⟨touches c, exec_acts (s := { s with pending := rest }) h⟩

/-- Settles O54, by the table of what each command may change (`effect_acts`). -/
theorem commandsLeaveFifoViewAndFaults : Obligations.CommandsLeaveFifoViewAndFaults := by
  intro c s t h
  have acts := exec_acts h
  refine ⟨?_, ?_, ?_, ?_, ?_⟩
  · by_cases named : .fifo ∈ touches c
    · cases c <;> simp [touches] at named ⊢
    · have kept := acts.fifo_eq named
      split <;> trivial
  · by_cases named : .view ∈ touches c
    · cases c <;> simp [touches] at named ⊢
    · have kept := acts.view_eq named
      split <;> trivial
  · by_cases named : .faults ∈ touches c
    · cases c <;> simp [touches] at named ⊢
    · have kept := acts.faults_eq named
      split <;> trivial
  · by_cases named : .cache ∈ touches c
    · cases c <;> simp [touches] at named ⊢
    · have kept := acts.cache_eq named
      split <;> trivial
  · by_cases named : .counters ∈ touches c
    · cases c <;> simp [touches] at named ⊢
    · have kept := acts.counter_le named
      split <;> trivial

/-- Settles O56, by what every act on the works keeps. -/
theorem stepKeepsQueuesAndCounters : Obligations.StepKeepsQueuesAndCounters := by
  refine ⟨fun s t queue counts h => ?_, fun s t report h => ?_⟩
  all_goals obtain ⟨may, acts⟩ := step_acts h
  · exact ⟨acts.queueWf queue, acts.countsWf counts⟩
  · exact acts.reportWf report

/-- Settles O57, by what every act on the works keeps. -/
theorem stepKeepsZonesAndLevels : Obligations.StepKeepsZonesAndLevels := by
  refine ⟨fun s t zones h => ?_, fun s t levels h => ?_⟩
  all_goals obtain ⟨may, acts⟩ := step_acts h
  · exact acts.zonesWf zones
  · exact acts.levelsWf levels

/-- Settles O58, by what every act on the works keeps. -/
theorem stepKeepsTheJobTags : Obligations.StepKeepsTheJobTags := by
  intro s t jobs h
  obtain ⟨may, acts⟩ := step_acts h
  exact acts.jobsWf jobs

end Sys2Proof.Proofs.Effects
end


section
/-! What each command's effect does to the surroundings of the works: `Leaves may e0 e` says that `e` differs from `e0` only
in the parts that `may` names, with the tables' sizes kept and every call id still in at most one slot. -/

namespace Sys2Proof.Proofs.Surroundings

open Sys2Proof Sys2Proof.Machine Sys2Proof.Proofs.Effects

/-! ### What the evaluation of a call leaves of its record -/

/-- What a CALL frame sets of a record, and its retention timer: the fields that evaluation leaves. -/
def CallRec.terms (c : CallRec) : CallRec :=
  { c with state := .planned, steps := [], mLast := none, clamped := false, closingReached := false, dwell := none }

/-- How the choice of current calls and the evaluation of ladders change a record: its terms stand, a live call stays live,
one at its face stays there, and a retired one is left alone. -/
structure Evolves (c d : CallRec) : Prop where
  terms : CallRec.terms d = CallRec.terms c
  live : c.state.live = true → d.state.live = true
  atFace : c.state.atFace = true → d.state.atFace = true
  retired : c.state.live = false → d = c

theorem Evolves.refl (c : CallRec) : Evolves c c := ⟨rfl, id, id, fun _ => rfl⟩

theorem Evolves.trans {a b c : CallRec} (h : Evolves a b) (k : Evolves b c) : Evolves a c where
  terms := k.terms.trans h.terms
  live l := k.live (h.live l)
  atFace l := k.atFace (h.atFace l)
  retired l := by
    have same := h.retired l
    exact (k.retired (same ▸ l)).trans same

theorem Evolves.id {c d : CallRec} (h : Evolves c d) : d.id = c.id :=
  (congrArg CallRec.id h.terms : (CallRec.terms d).id = (CallRec.terms c).id)

theorem live_of_atFace {s : CallState} (h : s.atFace = true) : s.live = true := by
  cases s <;> simp_all [CallState.atFace, CallState.live]

/-- A live call changes its steps and its marks, and its state onwards. -/
theorem Evolves.of_live {c d : CallRec} (live : c.state.live = true) (terms : CallRec.terms d = CallRec.terms c)
    (onward : d.state.live = true) (atFace : c.state.atFace = true → d.state.atFace = true) : Evolves c d :=
  ⟨terms, fun _ => onward, atFace, fun dead => absurd (live.symm.trans dead) (by simp)⟩

theorem skipSide_eq (f : FaceCfg) (side : LadderSide) (c : CallRec) : ∃ steps, c.skipSide f side = { c with steps := steps } := by
  unfold CallRec.skipSide
  refine List.foldlRecOn (motive := fun x : CallRec => ∃ steps, x = { c with steps := steps }) _ _ ⟨c.steps, rfl⟩
    (fun x same a _ => ?_)
  obtain ⟨steps, rfl⟩ := same
  split <;> exact ⟨_, rfl⟩

theorem skipTimed_eq (f : FaceCfg) (side : LadderSide) (c : CallRec) : ∃ steps, c.skipTimed f side = { c with steps := steps } := by
  unfold CallRec.skipTimed
  refine List.foldlRecOn (motive := fun x : CallRec => ∃ steps, x = { c with steps := steps }) _ _ ⟨c.steps, rfl⟩
    (fun x same a _ => ?_)
  obtain ⟨steps, rfl⟩ := same
  split <;> exact ⟨_, rfl⟩

theorem evaluateLadder_eq (e : Env) (slot : Nat) (f : FaceCfg) (side : LadderSide) (t : Nat) (c : CallRec) :
    ∃ steps, (evaluateLadder e slot f side t c).call = { c with steps := steps } := by
  have skipped (due : List (Nat × Nat × LadderStep)) :
      ∃ steps, due.foldl (fun c x => c.setStep (stepPlace side x.1) .skipped) c = { c with steps := steps } := by
    refine List.foldlRecOn (motive := fun x : CallRec => ∃ steps, x = { c with steps := steps }) _ _ ⟨c.steps, rfl⟩
      (fun x same a _ => ?_)
    obtain ⟨steps, rfl⟩ := same
    exact ⟨_, rfl⟩
  unfold evaluateLadder
  dsimp only
  split
  · exact ⟨c.steps, rfl⟩
  · rename_i s _
    obtain ⟨steps, eq⟩ := skipped (dueSteps e c side t (ladderOf f side))
    dsimp only
    rw [eq]
    split
    · exact ⟨_, rfl⟩
    · exact ⟨_, rfl⟩

theorem evaluateLadder_evolves (e : Env) (slot : Nat) (f : FaceCfg) (side : LadderSide) (t : Nat) {c : CallRec}
    (live : c.state.live = true) : Evolves c (evaluateLadder e slot f side t c).call := by
  obtain ⟨steps, eq⟩ := evaluateLadder_eq e slot f side t c
  rw [eq]
  exact .of_live live rfl live id

theorem reachClosing_evolves {c : CallRec} (live : c.state.live = true) : Evolves c c.reachClosing := by
  refine .of_live live rfl ?_ ?_
  all_goals
    unfold CallRec.reachClosing
    cases state : c.state <;> simp_all [CallState.live, CallState.atFace]

/-- A choice between two records a record evolves to. -/
theorem Evolves.ite {c a b : CallRec} {p : Prop} [Decidable p] (ha : Evolves c a) (hb : Evolves c b) :
    Evolves c (if p then a else b) := by
  split <;> assumption

/-- A step left PENDING makes a PLANNED call DUE, and the ladder's last one reaches the closing point (R36). -/
theorem Evolves.onward {c d : CallRec} (h : Evolves c d) (live : c.state.live = true) (left last : Bool) :
    Evolves c (if last then (if left && decide (d.state = .planned) then { d with state := .due } else d).reachClosing
      else if left && decide (d.state = .planned) then { d with state := .due } else d) := by
  have due : Evolves c (if left && decide (d.state = .planned) then { d with state := .due } else d) := by
    split
    · rename_i planned
      have planned : d.state = .planned := by simp_all
      exact h.trans (.of_live (h.live live) rfl rfl (by simp [planned, CallState.atFace]))
    · exact h
  exact .ite (due.trans (reachClosing_evolves (due.live live))) due

/-- Evaluation of a call (R34, R36, R37). -/
theorem evaluateCall_evolves (e : Env) (slot : Nat) (c : CallRec) : Evolves c (evaluateCall e slot c).1 := by
  unfold evaluateCall
  split
  · exact .refl c
  · rename_i state
    have live : c.state.live = true := by simpa using state
    have clamped : Evolves c (if c.needsClamp then { c with clamped := true } else c) :=
      .ite (.of_live live rfl live id) (.refl c)
    dsimp only
    generalize (if c.needsClamp then { c with clamped := true } else c) = d at clamped ⊢
    have side {x : CallRec} (h : Evolves c x) (f : FaceCfg) (side : LadderSide) (t : Nat) :
        Evolves c (evaluateLadder e slot f side t x).call := h.trans (evaluateLadder_evolves e slot f side t (h.live live))
    split
    · exact clamped
    · dsimp only
      split
      · split
        · exact (side (side clamped _ _ _) _ _ _).onward live _ _
        · exact (side clamped _ _ _).onward live _ _
      · split
        · exact (side clamped _ _ _).onward live _ _
        · exact clamped.onward live _ _

/-- The delay hysteresis (R42). -/
theorem hysteresis_evolves (e : Env) (slot : Nat) (c : CallRec) : Evolves c (hysteresis e slot c).1 := by
  unfold hysteresis
  dsimp only
  split
  · exact .refl c
  · rename_i state
    have live : c.state.live = true := by simpa using state
    split
    · split
      · exact .refl c
      · exact .of_live live rfl live id
    · split
      · exact .of_live live rfl live id
      · exact .refl c

/-- A current call found at its face (R18, R19): AT-PLATFORM or CLOSING. -/
theorem enterPlatform_evolves (e : Env) {c : CallRec} (live : c.state.live = true) : Evolves c (c.enterPlatform e) := by
  refine .of_live live rfl ?_ ?_
  all_goals
    unfold CallRec.enterPlatform
    dsimp only
    split <;> simp [CallState.live, CallState.atFace]

theorem skipSide_evolves (f : FaceCfg) (side : LadderSide) {c : CallRec} (live : c.state.live = true) :
    Evolves c (c.skipSide f side) := by
  obtain ⟨steps, eq⟩ := skipSide_eq f side c
  exact eq ▸ .of_live live rfl live id

/-! ### The call id of a record -/

/-- A choice of two records with one id has that id. -/
theorem id_ite {p : Prop} [Decidable p] {a b : CallRec} {i : Nat} (ha : a.id = i) (hb : b.id = i) :
    (if p then a else b).id = i := by
  split <;> assumption

@[simp] theorem id_skipSide (f : FaceCfg) (side : LadderSide) (c : CallRec) : (c.skipSide f side).id = c.id := by
  obtain ⟨steps, eq⟩ := skipSide_eq f side c
  rw [eq]

@[simp] theorem id_skipTimed (f : FaceCfg) (side : LadderSide) (c : CallRec) : (c.skipTimed f side).id = c.id := by
  obtain ⟨steps, eq⟩ := skipTimed_eq f side c
  rw [eq]

@[simp] theorem id_riseAtCall (e : Env) (slot : Nat) (f : FaceCfg) (c : CallRec) : (riseAtCall e slot f c).1.id = c.id := by
  have arrived : ((c.skipTimed f .arrival).enterPlatform e).id = c.id := id_skipTimed f .arrival c
  unfold riseAtCall
  dsimp only
  split
  · split
    · exact arrived
    · exact arrived
  · exact arrived

@[simp] theorem id_skipLost (e : Env) (c : CallRec) : (skipLost e c).id = c.id := by
  unfold skipLost
  split
  · rfl
  · dsimp only
    repeat' split
    all_goals simp

@[simp] theorem id_revisedState (e : Env) (was c : CallRec) : (revisedState e was c).id = c.id := by
  unfold revisedState
  dsimp only
  repeat' split
  all_goals rfl

@[simp] theorem id_expireByDay (e : Env) (c : CallRec) : (expireByDay e c).id = c.id := id_ite rfl rfl

@[simp] theorem id_unconfirmedTest (e : Env) (c : CallRec) : (unconfirmedTest e c).id = c.id := by
  unfold unconfirmedTest
  dsimp only
  repeat' split
  all_goals rfl

/-! ### The Call Table and the faces -/

theorem callAt_setCall_same {e : Env} {slot : Nat} {c : Option CallRec} (h : slot < e.calls.length) :
    (e.setCall slot c).callAt slot = c := by
  simp [Env.callAt, Env.setCall, h]

theorem callAt_setCall_of_ne {e : Env} {slot i : Nat} {c : Option CallRec} (h : i ≠ slot) :
    (e.setCall slot c).callAt i = e.callAt i := by
  simp [Env.callAt, Env.setCall, List.getElem?_set_ne (Ne.symm h)]

theorem lt_of_callAt {e : Env} {i : Nat} {c : CallRec} (h : e.callAt i = some c) : i < e.calls.length := by
  by_contra past
  simp [Env.callAt, List.getElem?_eq_none (Nat.le_of_not_lt past)] at h

/-- The Call Table and the faces change, within their sizes, and ids stay in one slot each. -/
structure CallsFrom (e0 e : Env) : Prop where
  rest : e = { e0 with calls := e.calls, faces := e.faces }
  calls : e.calls.length = e0.calls.length
  faces : e.faces.length = e0.faces.length
  ids : e0.calls.length = 32 → e0.idsUnique → e.idsUnique

theorem CallsFrom.refl (e : Env) : CallsFrom e e := ⟨rfl, rfl, rfl, fun _ => id⟩

theorem CallsFrom.trans {a b c : Env} (h : CallsFrom a b) (k : CallsFrom b c) : CallsFrom a c where
  rest := by
    rw [k.rest, h.rest]
  calls := k.calls.trans h.calls
  faces := k.faces.trans h.faces
  ids size unique := k.ids (h.calls.trans size) (h.ids size unique)

/-- A slot is set, when no other slot holds the call id. -/
theorem CallsFrom.setCall {e0 e : Env} (h : CallsFrom e0 e) (slot : Nat) (c : Option CallRec)
    (only : e0.calls.length = 32 → e0.idsUnique → ∀ d, c = some d → ∀ i x, e.callAt i = some x → x.id = d.id → i = slot) :
    CallsFrom e0 (e.setCall slot c) := by
  refine ⟨by rw [h.rest]; rfl, List.length_set.trans h.calls, h.faces, fun size0 unique0 i j x y hi hj same => ?_⟩
  have unique := h.ids size0 unique0
  have inSlot {k : Nat} {z : CallRec} (hk : (e.setCall slot c).callAt k = some z) (at_ : k = slot) : c = some z := by
    subst at_
    have := lt_of_callAt hk
    rw [callAt_setCall_same (by simpa [Env.setCall] using this)] at hk
    exact hk
  by_cases hi' : i = slot <;> by_cases hj' : j = slot
  · rw [hi', hj']
  · rw [callAt_setCall_of_ne hj'] at hj
    exact absurd (only size0 unique0 x (inSlot hi hi') j y hj same.symm) hj'
  · rw [callAt_setCall_of_ne hi'] at hi
    exact absurd (only size0 unique0 y (inSlot hj hj') i x hi same) hi'
  · rw [callAt_setCall_of_ne hi'] at hi
    rw [callAt_setCall_of_ne hj'] at hj
    exact unique i j x y hi hj same

/-- A record changes in its slot and keeps its id. -/
theorem CallsFrom.update {e0 e : Env} (h : CallsFrom e0 e) {slot : Nat} {c d : CallRec} (held : e.callAt slot = some c)
    (same : d.id = c.id) : CallsFrom e0 (e.setCall slot (some d)) :=
  h.setCall slot (some d) (fun size unique _ eq i x hx xd =>
    h.ids size unique i slot x c hx held (by rw [xd, ← Option.some.inj eq, same]))

theorem CallsFrom.clear {e0 e : Env} (h : CallsFrom e0 e) (slot : Nat) : CallsFrom e0 (e.setCall slot none) :=
  h.setCall slot none (fun _ _ _ eq => absurd eq (by simp))

/-- The faces change alone. -/
theorem CallsFrom.setFaces {e0 e : Env} (h : CallsFrom e0 e) (l : List (Option FaceRec)) (length : l.length = e.faces.length) :
    CallsFrom e0 { e with faces := l } :=
  h.trans ⟨rfl, rfl, length, fun _ => id⟩

/-- Every record changes in its slot and keeps its id. -/
theorem CallsFrom.mapCalls {e0 e : Env} (h : CallsFrom e0 e) (g : CallRec → CallRec) (same : ∀ c, (g c).id = c.id) :
    CallsFrom e0 { e with calls := e.calls.map (fun c => c.map g) } := by
  have from_ {i : Nat} {x : CallRec}
      (hx : ({ e with calls := e.calls.map (fun c => c.map g) } : Env).callAt i = some x) :
      ∃ c, e.callAt i = some c ∧ x.id = c.id := by
    simp only [Env.callAt, List.getElem?_map, Option.join_eq_some_iff, Option.map_eq_some_iff] at hx ⊢
    obtain ⟨_, held, c, rfl, rfl⟩ := hx
    exact ⟨c, held, same c⟩
  refine h.trans ⟨rfl, List.length_map _, rfl, fun _ unique i j x y hi hj xy => ?_⟩
  obtain ⟨c, hc, xc⟩ := from_ hi
  obtain ⟨d, hd, yd⟩ := from_ hj
  exact unique i j c d hc hd (by rw [← xc, ← yd, xy])

/-! ### The current calls and the evaluation (R9) -/

theorem insertFront_perm {α : Type} (le : α → α → Bool) (a : α) (l : List α) : (sortBy.insertFront le a l).Perm (a :: l) := by
  induction l with
  | nil => exact List.Perm.refl _
  | cons b rest ih =>
    unfold sortBy.insertFront
    split
    · exact List.Perm.refl _
    · exact (ih.cons b).trans (List.Perm.swap a b rest)

/-- Sorting moves the items only. -/
theorem sortBy_perm {α : Type} (le : α → α → Bool) (l : List α) : (sortBy le l).Perm l := by
  induction l with
  | nil => exact List.Perm.refl _
  | cons a rest ih => exact (insertFront_perm le a _).trans (ih.cons a)

theorem callAt_of_mem_liveCallsOf {e : Env} {face slot : Nat} {c : CallRec} (h : (slot, c) ∈ liveCallsOf e face) :
    e.callAt slot = some c := by
  simp only [liveCallsOf, List.mem_filter, List.mem_filterMap, Option.map_eq_some_iff] at h
  obtain ⟨⟨i, -, d, held, eq⟩, -⟩ := h
  obtain ⟨rfl, rfl⟩ := Prod.mk.inj eq
  exact held

/-- The current call of a face stands in its slot. -/
theorem callAt_of_chooseCurrent {e : Env} {face slot : Nat} {c : CallRec} (h : chooseCurrent e face = some (slot, c)) :
    e.callAt slot = some c := by
  unfold chooseCurrent at h
  dsimp only at h
  split at h
  · rename_i x found
    obtain rfl := Option.some.inj h
    exact callAt_of_mem_liveCallsOf (List.mem_of_find?_eq_some found)
  · exact callAt_of_mem_liveCallsOf ((sortBy_perm _ _).mem_iff.mp (List.mem_of_head? h))

theorem reselect_callsFrom {e0 e : Env} (h : CallsFrom e0 e) (i : Nat) : CallsFrom e0 (reselect i e).1 := by
  unfold reselect
  split
  · exact h
  · rename_i f _
    have chosen := h.setFaces (e.faces.set i (some { f with current := (chooseCurrent e f.cfg.number).map (·.1) }))
      List.length_set
    dsimp only
    split
    · exact chosen
    · rename_i slot c choice
      split
      · exact chosen.update (c := c) (callAt_of_chooseCurrent choice) (id_skipSide f.cfg .arrival c)
      · exact chosen

theorem reselectFaces_callsFrom {e0 e : Env} (h : CallsFrom e0 e) (numbers : List Nat) :
    CallsFrom e0 (reselectFaces numbers e).1 := by
  unfold reselectFaces
  refine List.foldlRecOn (motive := fun r : Env × List Nat => CallsFrom e0 r.1) _ _ h (fun r hr i _ => ?_)
  dsimp only
  split
  · split
    · exact reselect_callsFrom hr i
    · exact hr
  · exact hr

theorem evaluateSlot_callsFrom {e0 e : Env} (h : CallsFrom e0 e) (delayed : Option Nat) (slot : Nat) :
    CallsFrom e0 (evaluateSlot delayed slot e).1 := by
  unfold evaluateSlot
  split
  · exact h
  · rename_i c held
    refine h.update held ((evaluateCall_evolves _ _ _).id.trans ?_)
    split
    · exact (hysteresis_evolves _ _ _).id
    · rfl

theorem evaluateSlots_callsFrom {e0 e : Env} (h : CallsFrom e0 e) (delayed : Option Nat) (slots : List Nat) :
    CallsFrom e0 (evaluateSlots delayed slots e).1 :=
  List.foldlRecOn (motive := fun r : Env × List JobRequest => CallsFrom e0 r.1) _ _ h
    (fun _ hr i _ => evaluateSlot_callsFrom hr delayed i)

theorem finishWork_callsFrom {e0 : Env} {n : Node} (notices : List Note) (own : List JobRequest) (faces slots : List Nat)
    (delayed : Option Nat) (h : CallsFrom e0 n.env) : CallsFrom e0 (finishWork notices own faces slots delayed n).env :=
  evaluateSlots_callsFrom (reselectFaces_callsFrom h faces) delayed _

/-! ### Taking CALL frames -/

/-- No slot of `e` holds a call id, when the tables it comes from are ones whose ids stand in one slot each. -/
abbrev holdsNone (e0 e : Env) (id : Nat) : Prop :=
  e0.calls.length = 32 → e0.idsUnique → ∀ i x, e.callAt i = some x → x.id ≠ id

theorem holdsNone_of_slotOf {e : Env} {id : Nat} (h : slotOf e id = none) : holdsNone e e id := by
  intro size _ i x held same
  have past := List.findSome?_eq_none_iff.mp h i (List.mem_range.mpr (size ▸ lt_of_callAt held))
  simp [held, same] at past

theorem held_of_slotOf {e : Env} {id slot : Nat} {c : CallRec} (h : slotOf e id = some (slot, c)) :
    e.callAt slot = some c ∧ c.id = id := by
  obtain ⟨i, -, found⟩ := List.exists_of_findSome?_eq_some h
  obtain ⟨d, held, same⟩ := Option.bind_eq_some_iff.mp found
  split at same
  · obtain ⟨rfl, rfl⟩ := Prod.mk.inj (Option.some.inj same)
    exact ⟨held, by assumption⟩
  · exact absurd same (by simp)

theorem takeNew_callsFrom {e0 : Env} {n : Node} (slot : Nat) (b : CallBody) (old : Option Nat) (notices : List Note)
    (faces : List Nat) (h : CallsFrom e0 n.env)
    (only : e0.calls.length = 32 → e0.idsUnique → ∀ i x, n.env.callAt i = some x → x.id = b.id → i = slot) :
    CallsFrom e0 (takeNew slot b old notices faces n).env :=
  finishWork_callsFrom _ _ _ _ _ (h.setCall slot _ (fun size unique _ eq i x held same =>
    only size unique i x held (same.trans (congrArg CallRec.id (Option.some.inj eq).symm))))

theorem findSlot_callsFrom {e0 : Env} {n : Node} (b : CallBody) (h : CallsFrom e0 n.env) (new : holdsNone e0 n.env b.id) :
    CallsFrom e0 (findSlot b n).env := by
  have taken (slot : Nat) (notices : List Note) (faces : List Nat) (w : Works) :
      CallsFrom e0 (takeNew slot b (previousFace b) notices faces { n with ws := w }).env :=
    takeNew_callsFrom (n := { n with ws := w }) slot b _ notices faces h
      (fun size unique i x held same => absurd same (new size unique i x held))
  unfold findSlot
  split
  · exact taken _ _ _ _
  · split
    · exact taken _ _ _ _
    · dsimp only
      split
      · split
        · exact taken _ _ _ _
        · exact h
      · exact h

theorem takeUnheld_callsFrom {e0 : Env} {n : Node} (b : CallBody) (h : CallsFrom e0 n.env) (new : holdsNone e0 n.env b.id) :
    CallsFrom e0 (takeUnheld b n).env := by
  unfold takeUnheld
  split
  · exact h
  · exact findSlot_callsFrom b h new

theorem takeHeld_callsFrom {e0 : Env} {n : Node} {slot : Nat} {c : CallRec} (b : CallBody) (h : CallsFrom e0 n.env)
    (held : n.env.callAt slot = some c) (same : c.id = b.id) : CallsFrom e0 (takeHeld slot c b n).env := by
  unfold takeHeld
  split
  · exact h
  · exact h
  · split
    · split
      · exact finishWork_callsFrom _ _ _ _ _ (h.update held rfl)
      · split
        · exact finishWork_callsFrom _ _ _ _ _ (h.update held rfl)
        · split
          · exact finishWork_callsFrom _ _ _ _ _ (h.update held rfl)
          · refine finishWork_callsFrom _ _ _ _ _ (h.update held ?_)
            simp only [id_revisedState, id_skipLost]
            rfl
    · split
      · exact takeNew_callsFrom slot b _ _ _ h (fun size unique i x hx xb =>
          h.ids size unique i slot x c hx held (xb.trans same.symm))
      · exact h

theorem takeCall_callsFrom (b : CallBody) (n : Node) : CallsFrom n.env (takeCall b n).env := by
  have start := CallsFrom.refl n.env
  unfold takeCall
  split
  · exact start
  · split
    · exact start
    · split
      · rename_i none
        exact takeUnheld_callsFrom b start (holdsNone_of_slotOf none)
      · rename_i slot c found
        obtain ⟨held, same⟩ := held_of_slotOf found
        split
        · exact takeHeld_callsFrom b start held same
        · split
          · exact start
          · refine takeUnheld_callsFrom b (start.clear slot) (fun size unique i x hx xb => ?_)
            have hx : (n.env.setCall slot none).callAt i = some x := hx
            have elsewhere : i ≠ slot := by
              rintro rfl
              rw [callAt_setCall_same (lt_of_callAt held)] at hx
              exact absurd hx (by simp)
            rw [callAt_setCall_of_ne elsewhere] at hx
            exact elsewhere (unique i slot x c hx held (xb.trans same.symm))

/-! ### Clock events, presence and timers -/

theorem clockPass_callsFrom {e0 : Env} {n : Node} (window : Bool) (h : CallsFrom e0 n.env) :
    CallsFrom e0 (clockPass window n).env := by
  refine finishWork_callsFrom _ _ _ _ _ (h.mapCalls _ (fun c => ?_))
  rw [id_unconfirmedTest]
  split
  · exact id_expireByDay _ _
  · rfl

theorem presenceRises_callsFrom {e0 : Env} {n : Node} (f : FaceRec) (h : CallsFrom e0 n.env) :
    CallsFrom e0 (presenceRises f n).env := by
  unfold presenceRises
  split
  · exact finishWork_callsFrom _ _ _ _ _ h
  · rename_i slot c found
    obtain ⟨s, -, at_⟩ := Option.bind_eq_some_iff.mp found
    obtain ⟨d, held, eq⟩ := Option.map_eq_some_iff.mp at_
    obtain ⟨rfl, rfl⟩ := Prod.mk.inj eq
    split
    · exact h
    · exact finishWork_callsFrom _ _ _ _ _ (h.update held (id_riseAtCall _ _ _ _))

theorem presenceFalls_callsFrom {e0 : Env} {n : Node} (f : FaceRec) (h : CallsFrom e0 n.env) :
    CallsFrom e0 (presenceFalls f n).env := by
  unfold presenceFalls
  split
  · exact h
  · rename_i slot c found
    obtain ⟨s, -, at_⟩ := Option.bind_eq_some_iff.mp found
    obtain ⟨d, held, eq⟩ := Option.map_eq_some_iff.mp at_
    obtain ⟨rfl, rfl⟩ := Prod.mk.inj eq
    split
    · exact h
    · exact finishWork_callsFrom _ _ _ _ _ (h.update held (id_ite rfl rfl))

theorem debounceExpires_callsFrom (position : Nat) (n : Node) : CallsFrom n.env (debounceExpires position n).env := by
  have start := CallsFrom.refl n.env
  unfold debounceExpires
  split
  · exact start
  · split
    · exact start
    · dsimp only
      split
      · exact presenceRises_callsFrom _ (start.setFaces _ List.length_set)
      · exact presenceFalls_callsFrom _ (start.setFaces _ List.length_set)

theorem retentionExpires_callsFrom (slot : Nat) (n : Node) : CallsFrom n.env (retentionExpires slot n).env := by
  unfold retentionExpires
  split
  · split
    · exact (CallsFrom.refl n.env).clear slot
    · exact .refl _
  · exact .refl _

theorem dwellExpires_callsFrom (slot : Nat) (n : Node) : CallsFrom n.env (dwellExpires slot n).env := by
  unfold dwellExpires
  split
  · exact .refl _
  · rename_i c held
    split
    · exact finishWork_callsFrom _ _ _ _ _ ((CallsFrom.refl n.env).update held rfl)
    · exact .refl _

/-! ### What a command may change around the works -/

/-- The parts of the surroundings: the clock; calls and faces; node number, set, SAFE, configuration and phase; the
participation state; the pins; peers and zone homes. -/
inductive EnvPart where
  | clock | calls | straps | state | pins | peers
  deriving DecidableEq, Repr

/-- The surroundings' tables have the sizes the spec gives them. -/
abbrev envSized (e : Env) : Prop :=
  e.calls.length = 32 ∧ e.faces.length = 4 ∧ e.peers.length = 63 ∧ e.homes.length = 254

/-- What one command can do to the surroundings, when it may change the parts `may`. -/
structure Leaves (may : List EnvPart) (e0 e : Env) : Prop where
  now : e.now = e0.now
  clock : .clock ∉ may → e.clock = e0.clock
  calls : .calls ∉ may → e.calls = e0.calls ∧ e.faces = e0.faces
  straps : .straps ∉ may → e.part.node = e0.part.node ∧ e.part.setB = e0.part.setB ∧ e.part.safe = e0.part.safe
    ∧ e.part.cfg = e0.part.cfg ∧ e.part.phase = e0.part.phase
  state : .state ∉ may → e.part.state = e0.part.state
  pins : .pins ∉ may → e.pins = e0.pins
  peers : .peers ∉ may → e.peers = e0.peers ∧ e.homes = e0.homes
  sized : envSized e0 → envSized e ∧ (e0.idsUnique → e.idsUnique)

theorem Leaves.refl (may : List EnvPart) (e : Env) : Leaves may e e :=
  ⟨rfl, fun _ => rfl, fun _ => ⟨rfl, rfl⟩, fun _ => ⟨rfl, rfl, rfl, rfl, rfl⟩, fun _ => rfl, fun _ => rfl,
    fun _ => ⟨rfl, rfl⟩, fun h => ⟨h, id⟩⟩

/-- A change of the participation registers. -/
theorem Leaves.part {may : List EnvPart} {e0 e : Env} (h : Leaves may e0 e) (p : Part)
    (straps : .straps ∈ may ∨ (p.node = e.part.node ∧ p.setB = e.part.setB ∧ p.safe = e.part.safe ∧ p.cfg = e.part.cfg
      ∧ p.phase = e.part.phase)) (state : .state ∈ may ∨ p.state = e.part.state) : Leaves may e0 { e with part := p } where
  now := h.now
  clock := h.clock
  calls := h.calls
  straps not := by
    obtain ⟨a, b, c, d, f⟩ := h.straps not
    obtain ⟨a', b', c', d', f'⟩ := straps.resolve_left not
    exact ⟨a'.trans a, b'.trans b, c'.trans c, d'.trans d, f'.trans f⟩
  state not := (state.resolve_left not).trans (h.state not)
  pins := h.pins
  peers := h.peers
  sized := h.sized

/-- A change of calls and faces. -/
theorem Leaves.ofCalls {may : List EnvPart} {e0 e e' : Env} (h : Leaves may e0 e) (c : CallsFrom e e')
    (ok : .calls ∈ may) : Leaves may e0 e' := by
  obtain ⟨rest, calls, faces, ids⟩ := c
  refine ⟨?_, ?_, fun not => absurd ok not, ?_, ?_, ?_, ?_, fun size => ?_⟩
  · rw [rest]; exact h.now
  · rw [rest]; exact h.clock
  · rw [rest]; exact h.straps
  · rw [rest]; exact h.state
  · rw [rest]; exact h.pins
  · rw [rest]; exact h.peers
  · obtain ⟨⟨a, b, c, d⟩, unique⟩ := h.sized size
    rw [rest] at ids ⊢
    exact ⟨⟨calls.trans a, faces.trans b, c, d⟩, fun u => ids a (unique u)⟩

/-- Calls and faces are built anew. -/
theorem Leaves.rebuilt {may : List EnvPart} {e0 e : Env} (h : Leaves may e0 e) (c : List (Option CallRec))
    (f : List (Option FaceRec)) (ok : .calls ∈ may) (lengths : envSized e → c.length = 32 ∧ f.length = 4)
    (ids : e.idsUnique → ({ e with calls := c, faces := f } : Env).idsUnique) :
    Leaves may e0 { e with calls := c, faces := f } :=
  ⟨h.now, h.clock, fun not => absurd ok not, h.straps, h.state, h.pins, h.peers, fun size => by
    obtain ⟨sized, unique⟩ := h.sized size
    obtain ⟨lc, lf⟩ := lengths sized
    exact ⟨⟨lc, lf, sized.2.2⟩, fun u => ids (unique u)⟩⟩

theorem Leaves.clockSet {may : List EnvPart} {e0 e : Env} (h : Leaves may e0 e) (c : Clock) (ok : .clock ∈ may) :
    Leaves may e0 { e with clock := c } :=
  ⟨h.now, fun not => absurd ok not, h.calls, h.straps, h.state, h.pins, h.peers, h.sized⟩

theorem Leaves.pinsSet {may : List EnvPart} {e0 e : Env} (h : Leaves may e0 e) (p : Pins) (ok : .pins ∈ may) :
    Leaves may e0 { e with pins := p } :=
  ⟨h.now, h.clock, h.calls, h.straps, h.state, fun not => absurd ok not, h.peers, h.sized⟩

theorem Leaves.peersSet {may : List EnvPart} {e0 e : Env} (h : Leaves may e0 e) (p : List Peer) (z : List (Option Nat))
    (ok : .peers ∈ may) (lp : p.length = e.peers.length) (lz : z.length = e.homes.length) :
    Leaves may e0 { e with peers := p, homes := z } :=
  ⟨h.now, h.clock, h.calls, h.straps, h.state, h.pins, fun not => absurd ok not, fun size => by
    obtain ⟨⟨a, b, c, d⟩, unique⟩ := h.sized size
    exact ⟨⟨a, b, lp.trans c, lz.trans d⟩, unique⟩⟩

end Sys2Proof.Proofs.Surroundings
end


section
/-! The table of what each command may change around the works, and that it holds for every command. -/

namespace Sys2Proof.Proofs.Surroundings

open Sys2Proof Sys2Proof.Machine Sys2Proof.Proofs.Effects

variable {may : List EnvPart} {e0 : Env}

theorem idsUnique_of_free {e : Env} (h : e.calls = List.replicate 32 none) : e.idsUnique := by
  intro i j c d hi
  have free : e.callAt i = none := by
    simp only [Env.callAt, h, List.getElem?_replicate]
    split <;> rfl
  exact absurd (free.symm.trans hi) (by simp)

/-! ### Participation -/

theorem startReset_leaves (n : Node) (all : ∀ p, p ≠ .pins → p ∈ may) : Leaves may n.env (startReset n).env where
  now := rfl
  clock not := absurd (all _ (by decide)) not
  calls not := absurd (all _ (by decide)) not
  straps not := absurd (all _ (by decide)) not
  state not := absurd (all _ (by decide)) not
  pins _ := rfl
  peers not := absurd (all _ (by decide)) not
  sized _ := ⟨⟨List.length_replicate, rfl, List.length_replicate, List.length_replicate⟩, fun _ => idsUnique_of_free rfl⟩

theorem resetReleased_leaves (node : Nat) (setB : Bool) (n : Node) (ok : .straps ∈ may) :
    Leaves may n.env (resetReleased node setB n).env := by
  unfold resetReleased
  split
  · exact (Leaves.refl _ _).part _ (Or.inl ok) (Or.inr rfl)
  · exact .refl _ _

theorem enterListen_leaves {n : Node} (ok : .state ∈ may) (h : Leaves may e0 n.env) : Leaves may e0 (enterListen n).env :=
  h.part _ (Or.inr ⟨rfl, rfl, rfl, rfl, rfl⟩) (Or.inl ok)

theorem imageTaken_leaves (image : Option (List Byte)) (n : Node) (calls : .calls ∈ may) (straps : .straps ∈ may)
    (state : .state ∈ may) : Leaves may n.env (imageTaken image n).env := by
  unfold imageTaken
  split
  · refine enterListen_leaves state ?_
    have faced (cfg : Loaded) : Leaves may n.env { n.env with faces := buildFaces cfg n.env.pins.pres } :=
      (Leaves.refl _ n.env).rebuilt n.env.calls _ calls (fun sized => ⟨sized.1, by simp [buildFaces]⟩) id
    exact (faced _).part _ (Or.inl straps) (Or.inl state)
  · exact .refl _ _

theorem listenExpires_leaves (n : Node) (ok : .state ∈ may) : Leaves may n.env (listenExpires n).env := by
  unfold listenExpires
  split
  · exact (Leaves.refl _ _).part _ (Or.inr ⟨rfl, rfl, rfl, rfl, rfl⟩) (Or.inl ok)
  · exact .refl _ _

theorem isolationExpires_leaves (n : Node) : Leaves may n.env (isolationExpires n).env := by
  unfold isolationExpires
  split
  · exact (Leaves.refl _ _).part _ (Or.inr ⟨rfl, rfl, rfl, rfl, rfl⟩) (Or.inr rfl)
  · exact .refl _ _

theorem enterIsolated_leaves {n : Node} (ok : .state ∈ may) (h : Leaves may e0 n.env) :
    Leaves may e0 (enterIsolated n).env :=
  h.part _ (Or.inr ⟨rfl, rfl, rfl, rfl, rfl⟩) (Or.inl ok)

theorem isolationEnds_leaves {n : Node} (ok : .state ∈ may) (h : Leaves may e0 n.env) :
    Leaves may e0 (isolationEnds n).env := by
  unfold isolationEnds
  split
  · exact enterListen_leaves ok (h.part _ (Or.inr ⟨rfl, rfl, rfl, rfl, rfl⟩) (Or.inl ok))
  · exact h

theorem recoveryHeard_env (n : Node) : (recoveryHeard n).env = n.env := by
  unfold recoveryHeard
  split <;> rfl

theorem quietTaken_leaves {n : Node} (ok : .state ∈ may) (h : Leaves may e0 n.env) : Leaves may e0 (quietTaken n).env := by
  unfold quietTaken
  split
  · exact h.part _ (Or.inr ⟨rfl, rfl, rfl, rfl, rfl⟩) (Or.inl ok)
  · exact h

theorem wakeTaken_leaves {n : Node} (ok : .state ∈ may) (h : Leaves may e0 n.env) : Leaves may e0 (wakeTaken n).env := by
  unfold wakeTaken
  split
  · exact h.part _ (Or.inr ⟨rfl, rfl, rfl, rfl, rfl⟩) (Or.inl ok)
  · exact h

theorem serviceReset_leaves {n : Node} (ok : .calls ∈ may) (h : Leaves may e0 n.env) : Leaves may e0 (serviceReset n).env := by
  unfold serviceReset
  split
  · exact h
  · exact h.rebuilt _ _ ok (fun sized => ⟨List.length_replicate, (List.length_map _).trans sized.2.1⟩)
      (fun _ => idsUnique_of_free rfl)

/-! ### The line -/

theorem frameStarts_env (rivals : List Nat) (n : Node) : (frameStarts rivals n).env = n.env := by
  unfold frameStarts
  dsimp only
  split
  · rfl
  · split <;> rfl

theorem ownFrameSpoiled_leaves (agreed : Bool) {n : Node} (ok : .state ∈ may) (h : Leaves may e0 n.env) :
    Leaves may e0 (ownFrameSpoiled agreed n).env := by
  unfold ownFrameSpoiled
  split
  · exact h
  · rename_i t _
    dsimp only
    generalize (if agreed = true then (n.ws.compareCheck agreed).bump .spoils else n.ws.compareCheck agreed) = ws
    split
    · exact enterIsolated_leaves ok h
    · exact h

theorem ownFrameSent_env (agreed : Bool) (n : Node) : (ownFrameSent agreed n).env = n.env := by
  unfold ownFrameSent
  split
  · rfl
  · split <;> rfl

/-- One peer's entry changes. -/
theorem Leaves.modPeer {e : Env} (h : Leaves may e0 e) (node : Nat) (f : Peer → Peer) (ok : .peers ∈ may) :
    Leaves may e0 (e.modPeer node f) := by
  unfold Env.modPeer
  split
  · exact h
  · exact h.peersSet _ e.homes ok (List.length_modify _ _ _) rfl

theorem filterFrame_leaves (f : Frame) {n : Node} (ok : .peers ∈ may) (h : Leaves may e0 n.env) :
    Leaves may e0 (filterFrame f n).env := by
  unfold filterFrame
  split
  · exact h
  · split
    · exact h
    · split
      · exact h
      · split
        · exact h
        · exact h.modPeer _ _ ok

theorem frameReceived_leaves (bytes : List Byte) (spoiled : Bool) (n : Node) (state : .state ∈ may) (peers : .peers ∈ may) :
    Leaves may n.env (frameReceived bytes spoiled n).env := by
  have start := Leaves.refl may n.env
  unfold frameReceived
  split
  · exact start
  · split
    · split
      · exact ownFrameSpoiled_leaves _ state start
      · exact ownFrameSent_env true n ▸ start
    · dsimp only
      split
      · exact start
      · split
        · exact start
        · unfold goodFrame
          split
          · exact start
          · split
            · exact start
            · exact filterFrame_leaves _ peers start

/-- The echoes that change the participation state are those of PROFILE. -/
theorem echoEffect_leaves (x : EchoPlace) {n : Node}
    (state : .state ∈ may ∨ x.purpose ≠ .isolationProfile ∨ ∀ b, x.frame.payload ≠ .profile b) (h : Leaves may e0 n.env) :
    Leaves may e0 (echoEffect x n).env := by
  unfold echoEffect
  split
  · exact h
  · exact h
  · exact h
  · rename_i b profile purpose
    exact isolationEnds_leaves (state.resolve_right (fun other => other.elim (· purpose) (· b profile))) h
  · exact recoveryHeard_env n ▸ h
  · exact h

theorem deliverEcho_leaves (wanted : EchoPlace → Bool) (n : Node)
    (state : .state ∈ may ∨ ∀ x, wanted x = true → x.purpose ≠ .isolationProfile ∨ ∀ b, x.frame.payload ≠ .profile b) :
    Leaves may n.env (deliverEcho wanted n).env := by
  unfold deliverEcho
  split
  · exact .refl _ _
  · rename_i x _
    split
    · rename_i due
      exact echoEffect_leaves x (state.imp_right (· x due.2)) (.refl _ _)
    · exact .refl _ _

/-! ### Frames taken -/

theorem takeFrom_leaves (act : Frame → Option (Node → Node)) (n : Node)
    (acts : ∀ f g, act f = some g → ∀ m : Node, m.env = n.env → Leaves may n.env (g m).env) :
    Leaves may n.env (takeFrom act n).env := by
  unfold takeFrom
  split
  · exact .refl _ _
  · split
    · exact .refl _ _
    · split
      · exact .refl _ _
      · rename_i f _ _ _ _ g taken
        exact acts f g taken _ rfl

/-- The acts that leave the surroundings alone. -/
theorem workAct_env {act : Frame → Option (Node → Node)}
    (listed : act ∈ [actAnnounce, actReplayLast, actStatusQuery, actSeize, actFree, actZoneAsk, actZoneLeave,
      actZoneAnswer, actZoneRevoke]) {f : Frame} {g : Node → Node} (taken : act f = some g) (m : Node) : (g m).env = m.env := by
  simp only [List.mem_cons, List.not_mem_nil, or_false] at listed
  rcases listed with rfl | rfl | rfl | rfl | rfl | rfl | rfl | rfl | rfl
  all_goals
    simp only [actAnnounce, actReplayLast, actStatusQuery, actSeize, actFree, actZoneAsk, actZoneLeave, actZoneAnswer,
      actZoneRevoke] at taken
    split at taken
    · obtain rfl := Option.some.inj taken
      rfl
    · exact absurd taken (by simp)

theorem takeTime_leaves (day second : Nat) (n : Node) (clock : .clock ∈ may) (calls : .calls ∈ may) :
    Leaves may n.env (takeTime day second n).env := by
  unfold takeTime
  dsimp only
  exact Leaves.ofCalls ((Leaves.refl _ n.env).clockSet _ clock) (clockPass_callsFrom true (.refl _)) calls

theorem tickHappens_leaves (n : Node) (clock : .clock ∈ may) (calls : .calls ∈ may) :
    Leaves may n.env (tickHappens n).env := by
  unfold tickHappens
  split
  · dsimp only
    exact ((Leaves.refl _ _).clockSet _ clock).ofCalls (clockPass_callsFrom _ (.refl _)) calls
  · exact .refl _ _

theorem length_claimZones (source : Nat) (zones : List Nat) (homes : List (Option Nat)) :
    (claimZones source zones homes).length = homes.length := by
  unfold claimZones
  refine List.foldlRecOn (motive := fun l : List (Option Nat) => l.length = homes.length) _ _ (by simp)
    (fun l same z _ => List.length_set.trans same)

theorem takeProfile_leaves (source : Nat) (b : ProfileBody) (n : Node) (ok : .peers ∈ may) :
    Leaves may n.env (takeProfile source b n).env := by
  have heard := (Leaves.refl may n.env).modPeer source (heardProfile b) ok
  refine heard.peersSet _ _ ok rfl ((length_claimZones _ _ _).trans ?_)
  unfold Env.modPeer
  split <;> rfl

/-! ### Pins -/

theorem presenceChanges_leaves (position : Nat) (level : Bool) (n : Node) (pins : .pins ∈ may) (calls : .calls ∈ may) :
    Leaves may n.env (presenceChanges position level n).env := by
  have moved := (Leaves.refl may n.env).pinsSet { n.env.pins with pres := n.env.pins.pres.set position level } pins
  unfold presenceChanges
  split
  · exact .refl _ _
  · dsimp only
    split
    · exact moved.ofCalls ((CallsFrom.refl _).setFaces _ List.length_set) calls
    · exact moved

theorem triggerEdge_leaves (input : Nat) (level : Bool) (n : Node) (ok : .pins ∈ may) :
    Leaves may n.env (triggerEdge input level n).env := by
  unfold triggerEdge
  split
  · exact .refl _ _
  · exact (Leaves.refl _ _).pinsSet _ ok

theorem ambientReadings_env (readings : List (Option Nat)) (n : Node) : (ambientReadings readings n).env = n.env := by
  unfold ambientReadings
  split <;> rfl

theorem silenceExpires_env (zone : Nat) (n : Node) : (silenceExpires zone n).env = n.env := by
  unfold silenceExpires
  split <;> rfl

theorem gapSilenceEnds_env (channel : Nat) (n : Node) : (gapSilenceEnds channel n).env = n.env := by
  unfold gapSilenceEnds
  split <;> rfl

theorem underrunReached_env (channel : Nat) (n : Node) : (underrunReached channel n).env = n.env := by
  unfold underrunReached
  dsimp only
  split <;> rfl

theorem stallReached_env (channel : Nat) (n : Node) : (stallReached channel n).env = n.env := by
  unfold stallReached
  dsimp only
  split <;> rfl

/-! ### The table of the commands -/

/-- The parts of the surroundings each command may change (95_what_each_step_holds.md). -/
def reaches : Instr → List EnvPart
  | .startReset => [.clock, .calls, .straps, .state, .peers]
  | .resetRelease _ _ => [.straps]
  | .configImageTaken _ => [.calls, .straps, .state]
  | .time | .tick => [.clock, .calls]
  | .srvPulse | .serviceReset | .call | .retentionTimerExpiry _ | .dwellTimerExpiry _ | .debounceTimerExpiry _ => [.calls]
  | .presenceInputChange _ _ => [.calls, .pins]
  | .listenTimerExpiry | .quiet | .wake | .ownFrameSpoiled _ | .echo | .isolationProfileEcho => [.state]
  | .frameReceived _ _ => [.state, .peers]
  | .triggerRisingEdge _ | .triggerFallingEdge _ | .samplePeriod _ | .lineFaultInputChange _ _ => [.pins]
  | .profile => [.peers]
  | _ => []

/-- Every command changes around the works only the parts that the table names. -/
theorem effect_leaves (c : Instr) (n : Node) : Leaves (reaches c) n.env (effect c n).env := by
  have start := Leaves.refl (reaches c) n.env
  have work {act : Frame → Option (Node → Node)} (listed : act ∈ [actAnnounce, actReplayLast, actStatusQuery, actSeize,
      actFree, actZoneAsk, actZoneLeave, actZoneAnswer, actZoneRevoke]) {may : List EnvPart} :
      Leaves may n.env (takeFrom act n).env :=
    takeFrom_leaves act n (fun _ _ taken m same => (workAct_env listed taken m).trans same ▸ .refl _ _)
  cases c with
  | startReset => exact startReset_leaves n (fun p not => by cases p <;> simp_all [reaches])
  | resetRelease node setB => exact resetReleased_leaves node setB n (by simp [reaches])
  | configImageTaken image => exact imageTaken_leaves image n (by simp [reaches]) (by simp [reaches]) (by simp [reaches])
  | srvPulse => exact serviceReset_leaves (by simp [reaches]) start
  | listenTimerExpiry => exact listenExpires_leaves n (by simp [reaches])
  | isolationTimerExpiry => exact isolationExpires_leaves n
  | frameStart rivals => exact frameStarts_env rivals n ▸ start
  | ownFrameSpoiled agreed => exact ownFrameSpoiled_leaves agreed (by simp [reaches]) start
  | ownFrameSent agreed => exact ownFrameSent_env agreed n ▸ start
  | frameReceived bytes spoiled => exact frameReceived_leaves bytes spoiled n (by simp [reaches]) (by simp [reaches])
  | echo => exact deliverEcho_leaves _ n (Or.inl (by simp [reaches]))
  | seizeEcho =>
    refine deliverEcho_leaves _ n (Or.inr (fun x seize => Or.inr (fun b profile => ?_)))
    obtain ⟨_, _, _, same⟩ := payload_of_isSeize seize
    exact absurd (same.symm.trans profile) (by simp)
  | zoneAskEcho =>
    refine deliverEcho_leaves _ n (Or.inr (fun x ask => Or.inr (fun b profile => ?_)))
    obtain ⟨_, _, _, _, same⟩ := payload_of_isZoneAsk ask
    exact absurd (same.symm.trans profile) (by simp)
  | isolationProfileEcho => exact deliverEcho_leaves _ n (Or.inl (by simp [reaches]))
  | profileEcho =>
    refine deliverEcho_leaves _ n (Or.inr (fun x wanted => Or.inl (fun isolation => ?_)))
    simp [isolation] at wanted
  | time =>
    refine takeFrom_leaves _ n (fun f g taken m same => ?_)
    unfold actTime at taken
    split at taken
    · obtain rfl := Option.some.inj taken
      rw [← same]
      exact takeTime_leaves _ _ m (by simp [reaches]) (by simp [reaches])
    · exact absurd taken (by simp)
  | call =>
    refine takeFrom_leaves _ n (fun f g taken m same => ?_)
    unfold actCall at taken
    split at taken
    · obtain rfl := Option.some.inj taken
      exact same ▸ (Leaves.refl _ _).ofCalls (takeCall_callsFrom _ m) (by simp [reaches])
    · exact absurd taken (by simp)
  | announce => exact work (by simp)
  | quiet =>
    refine takeFrom_leaves _ n (fun f g taken m same => ?_)
    unfold actQuiet at taken
    split at taken
    · obtain rfl := Option.some.inj taken
      exact quietTaken_leaves (by simp [reaches]) (same ▸ start)
    · exact absurd taken (by simp)
  | wake =>
    refine takeFrom_leaves _ n (fun f g taken m same => ?_)
    unfold actWake at taken
    split at taken
    · obtain rfl := Option.some.inj taken
      exact wakeTaken_leaves (by simp [reaches]) (same ▸ start)
    · exact absurd taken (by simp)
  | serviceReset =>
    refine takeFrom_leaves _ n (fun f g taken m same => ?_)
    unfold actServiceReset at taken
    split at taken
    · obtain rfl := Option.some.inj taken
      dsimp only
      split
      · exact serviceReset_leaves (by simp [reaches]) (same ▸ start)
      · exact same ▸ start
    · exact absurd taken (by simp)
  | replayLast => exact work (by simp)
  | statusQuery => exact work (by simp)
  | profile =>
    refine takeFrom_leaves _ n (fun f g taken m same => ?_)
    unfold actProfile at taken
    split at taken
    · obtain rfl := Option.some.inj taken
      exact same ▸ takeProfile_leaves _ _ m (by simp [reaches])
    · exact absurd taken (by simp)
  | seize => exact work (by simp)
  | free => exact work (by simp)
  | zoneAsk => exact work (by simp)
  | zoneLeave => exact work (by simp)
  | zoneAnswer => exact work (by simp)
  | zoneRevoke => exact work (by simp)
  | tick => exact tickHappens_leaves n (by simp [reaches]) (by simp [reaches])
  | retentionTimerExpiry slot => exact start.ofCalls (retentionExpires_callsFrom slot n) (by simp [reaches])
  | dwellTimerExpiry slot => exact start.ofCalls (dwellExpires_callsFrom slot n) (by simp [reaches])
  | presenceInputChange position level =>
    exact presenceChanges_leaves position level n (by simp [reaches]) (by simp [reaches])
  | debounceTimerExpiry position => exact start.ofCalls (debounceExpires_callsFrom position n) (by simp [reaches])
  | triggerRisingEdge input => exact triggerEdge_leaves input true n (by simp [reaches])
  | triggerFallingEdge input => exact triggerEdge_leaves input false n (by simp [reaches])
  | samplePeriod carrier => exact start.pinsSet _ (by simp [reaches])
  | gapSilenceEnd channel => exact gapSilenceEnds_env channel n ▸ start
  | underrun channel => exact underrunReached_env channel n ▸ start
  | stall channel => exact stallReached_env channel n ▸ start
  | lineFaultInputChange output level => exact start.pinsSet _ (by simp [reaches])
  | ambientReadingCycle readings => exact ambientReadings_env readings n ▸ start
  | silenceTimerExpiry zone => exact silenceExpires_env zone n ▸ start
  | _ => exact start

/-- A command changes around the works what the table allows it. -/
theorem exec_leaves {c : Instr} {s t : State} (h : exec c s = .next t) : Leaves (reaches c) s.env t.env :=
  env_of_exec h ▸ effect_leaves c s.node

/-- Settles O53, by the table of what each command may change (`effect_leaves`). -/
theorem commandsLeaveWhatTheyDoNotName : Obligations.CommandsLeaveWhatTheyDoNotName := by
  intro c s t h
  have leaves := exec_leaves h
  refine ⟨?_, ?_, ?_, ?_, ?_, ?_⟩
  · by_cases named : .clock ∈ reaches c
    · cases c <;> simp [reaches] at named ⊢
    · have kept := leaves.clock named
      split <;> trivial
  · by_cases named : .calls ∈ reaches c
    · cases c <;> simp [reaches] at named ⊢
    · have kept := leaves.calls named
      split <;> trivial
  · by_cases named : .straps ∈ reaches c
    · cases c <;> simp [reaches] at named ⊢
    · have kept := leaves.straps named
      split <;> trivial
  · by_cases named : .state ∈ reaches c
    · cases c <;> simp [reaches] at named ⊢
    · have kept := leaves.state named
      split <;> trivial
  · by_cases named : .pins ∈ reaches c
    · cases c <;> simp [reaches] at named ⊢
    · have kept := leaves.pins named
      split <;> trivial
  · by_cases named : .peers ∈ reaches c
    · cases c <;> simp [reaches] at named ⊢
    · have kept := leaves.peers named
      split <;> trivial

/-- Settles O59, by what every command leaves (`effect_leaves`, `effect_acts`). -/
theorem stepKeepsSizesAndCallIds : Obligations.StepKeepsSizesAndCallIds := by
  intro s t sized h
  obtain ⟨calls, faces, peers, homes, works⟩ := sized
  unfold step at h
  split at h
  · obtain rfl := Host.Outcome.next.inj h
    unfold idle
    split
    all_goals exact ⟨⟨calls, faces, peers, homes, works⟩, id⟩
  · rename_i c rest _
    obtain ⟨⟨calls, faces, peers, homes⟩, ids⟩ :=
      (exec_leaves (s := { s with pending := rest }) h).sized ⟨calls, faces, peers, homes⟩
    have works := (exec_acts (s := { s with pending := rest }) h).sized works
    exact ⟨⟨calls, faces, peers, homes, works⟩, ids⟩

end Sys2Proof.Proofs.Surroundings
end


section
/-! The clock's range, the step, and the reset. -/

namespace Sys2Proof.Proofs.StepAndClock

open Sys2Proof Sys2Proof.Machine Sys2Proof.Proofs.Effects Sys2Proof.Proofs.Surroundings

theorem clock_of_clockPass (window : Bool) (n : Node) : (clockPass window n).env.clock = n.env.clock := by
  have rest := (clockPass_callsFrom (n := n) window (.refl _)).rest
  rw [rest]

theorem advance_wf (now : Instant) {c : Clock} (h : c.wf) : (c.advance now).1.wf := by
  obtain ⟨day, second⟩ := h
  unfold Clock.advance
  split
  · exact ⟨Nat.mod_lt _ (by omega), Nat.zero_lt_succ _⟩
  · refine ⟨day, ?_⟩
    show c.second + 1 < 86400
    omega

/-- TIME sets the clock to what its frame carries (R29). -/
theorem clock_of_takeTime (day second : Nat) (n : Node) :
    (takeTime day second n).env.clock
      = { day := day, second := second, known := true, nextTick := some (n.env.now + sec 1) } := by
  unfold takeTime
  dsimp only
  exact clock_of_clockPass _ _

/-- TICK advances a known clock (R28). -/
theorem clock_of_tickHappens (n : Node) : (tickHappens n).env.clock = n.env.clock
    ∨ (tickHappens n).env.clock = (n.env.clock.advance n.env.now).1 := by
  unfold tickHappens
  split
  · dsimp only
    exact Or.inr (clock_of_clockPass _ _)
  · exact Or.inl rfl

/-- Every command keeps the clock in range when the TIME frames of the receive FIFO are. -/
theorem effect_clock_wf (c : Instr) (n : Node) (clock : n.env.clock.wf) (times : timesInRange n.ws.line.rx) :
    (effect c n).env.clock.wf := by
  by_cases named : .clock ∈ reaches c
  · cases c <;> simp [reaches] at named
    case startReset => exact ⟨Nat.zero_lt_succ _, Nat.zero_lt_succ _⟩
    case tick =>
      rcases clock_of_tickHappens n with same | advanced
      · exact same ▸ clock
      · exact advanced ▸ advance_wf _ clock
    case time =>
      show (takeFrom actTime n).env.clock.wf
      unfold takeFrom
      split
      · exact clock
      · rename_i f rest first
        split
        · exact clock
        · split
          · exact clock
          · rename_i g taken
            have inRange := times f (first ▸ List.mem_cons_self)
            unfold actTime at taken
            split at taken
            · rename_i day second payload
              obtain rfl := Option.some.inj taken
              rw [clock_of_takeTime]
              unfold Frame.timeInRange at inRange
              rw [payload] at inRange
              exact inRange
            · exact absurd taken (by simp)
  · exact (effect_leaves c n).clock named ▸ clock

/-- Settles O55, by the commands that set the clock and what every act on the works keeps. -/
theorem stepKeepsTheClockInRange : Obligations.StepKeepsTheClockInRange := by
  intro s t clock times h
  obtain ⟨may, acts⟩ := step_acts h
  refine ⟨?_, acts.times times⟩
  unfold step at h
  split at h
  · obtain rfl := Host.Outcome.next.inj h
    unfold idle
    split <;> exact clock
  · rename_i c rest _
    rw [env_of_exec h]
    exact effect_clock_wf c s.node clock times

/-- Settles O60, by evaluation of the tables and the works right after reset. -/
theorem resetHasTheInvariants : Obligations.ResetHasTheInvariants := by
  obtain ⟨queue, counts, times, report, zones, levels, jobs⟩ := reset_lawful
  refine ⟨⟨by decide, by decide⟩, times, queue, counts, report, zones, jobs, levels, ?_, idsUnique_of_free rfl⟩
  exact ⟨List.length_replicate, rfl, List.length_replicate, List.length_replicate, rfl, rfl, rfl⟩

/-- Settles O1, by the definition of the step. -/
theorem stepRunsTheCommandAtTheFront : Obligations.StepRunsTheCommandAtTheFront := fun _ _ _ => rfl

/-- Settles O2: every command is an effect and its settling, and no effect moves the timebase. -/
theorem everyCommandAnswersAndIdleLetsTimePass : Obligations.EveryCommandAnswersAndIdleLetsTimePass := by
  refine ⟨fun c s => ?_, fun s c more queue due => ?_, fun s queue due => ?_⟩
  · exact ⟨_, exec_eq c s, rfl, (effect_leaves c s.node).now⟩
  · simp [step, idle, queue, due]
  · simp [step, idle, queue, due, Node.later, State.env, State.ws]

end Sys2Proof.Proofs.StepAndClock
end


section
/-! What a command answers, from its effect and the settling of the work it leaves; a frame handed over; the look for a
dispatch.  These serve the statements about single commands. -/

namespace Sys2Proof.Proofs.Commands

open Sys2Proof Sys2Proof.Machine Sys2Proof.Proofs.Effects Sys2Proof.Proofs.Reports

/-! ### What a command answers -/

/-- A command's answer, from its effect on the node. -/
theorem exec_of_effect {c : Instr} {s : State} {n : Node} (h : effect c s.node = n) :
    exec c s = .next { s with node := n.settled } := by
  rw [exec_eq, h]

/-- A command's answer when its effect leaves no work to other blocks. -/
theorem exec_of_effect_rested {c : Instr} {s : State} {n : Node} (h : effect c s.node = n) (rested : n.ws.agenda = []) :
    exec c s = .next { s with node := n } := by
  rw [exec_of_effect h, Node.settled_of_empty n rested]

/-- A command's answer when its effect reaches the works alone, and they settle to `w`. -/
theorem exec_of_works {c : Instr} {s : State} {v w : Works} (h : effect c s.node = { s.node with ws := v })
    (settled : settle s.env settleFuel v = w) : exec c s = .next (s.withWs w) := by
  rw [exec_of_effect h, Node.settled, settled]
  rfl

/-- A command that takes the frame at the head of the receive FIFO. -/
theorem effect_of_passes {c : Instr} {act : Frame → Option (Node → Node)} (taker : effect c = takeFrom act) {s : State}
    {f : Frame} {rest : List Frame} (head : s.passes f rest) {g : Node → Node} (acts : act f = some g) :
    effect c s.node = g { s.node with ws := s.taken rest } := by
  rw [taker]
  exact takeFrom_of_head act s.node f rest g head.1 head.2 acts

/-- A command that delivers the echo that is due. -/
theorem effect_of_echoDue {c : Instr} {wanted : EchoPlace → Bool} (deliverer : effect c = deliverEcho wanted) {s : State}
    {x : EchoPlace} (due : s.echoDue x) (wants : wanted x = true) :
    effect c s.node = echoEffect x { s.node with ws := s.echoGone } := by
  rw [deliverer]
  exact deliverEcho_of_due wanted s.node x due.1 due.2 wants

/-! ### Settling piece by piece -/

theorem eq_clear_agenda {w : Works} (rested : w.agenda = []) : { w with agenda := [] } = w := by
  cases w
  simp_all

/-- One piece of work handed on by a block at rest is done, and settling goes on. -/
theorem settle_post_cons {w : Works} (e : Env) (fuel : Nat) (n : Note) (rested : w.agenda = []) :
    settle e (fuel + 1) (w.post n) = settle e fuel (handle e n w) := by
  rw [settle_cons e fuel (w.post n) n [] (by simp [rested])]
  exact congrArg (fun v => settle e fuel (handle e n v)) (eq_clear_agenda rested)

/-- One piece of work handed on, whose doing hands on nothing more. -/
theorem settle_post {w : Works} (e : Env) (n : Note) (rested : w.agenda = []) (done : (handle e n w).agenda = []) :
    settle e settleFuel (w.post n) = handle e n w :=
  (settle_post_cons e 65535 n rested).trans (settle_of_empty e _ _ done)

/-! ### What settling leaves -/

@[simp] theorem settle_trunks (e : Env) (fuel : Nat) (w : Works) : (settle e fuel w).trunks = w.trunks := by
  obtain ⟨trunks, -⟩ := (settle_settles e fuel w).kept
  exact trunks

@[simp] theorem settle_faults (e : Env) (fuel : Nat) (w : Works) :
    (settle e fuel w).report.faults = w.report.faults := by
  obtain ⟨-, faults, -⟩ := (settle_settles e fuel w).kept
  exact faults

@[simp] theorem settle_seq (e : Env) (fuel : Nat) (w : Works) : (settle e fuel w).report.seq = w.report.seq := by
  obtain ⟨-, -, seq, -⟩ := (settle_settles e fuel w).kept
  exact seq

@[simp] theorem settle_cache (e : Env) (fuel : Nat) (w : Works) : (settle e fuel w).flash.cache = w.flash.cache := by
  obtain ⟨-, -, -, cache, -⟩ := (settle_settles e fuel w).kept
  exact cache

@[simp] theorem settle_rx (e : Env) (fuel : Nat) (w : Works) : (settle e fuel w).line.rx = w.line.rx := by
  obtain ⟨-, -, -, -, rx, -⟩ := (settle_settles e fuel w).kept
  exact rx

@[simp] theorem settle_echo (e : Env) (fuel : Nat) (w : Works) : (settle e fuel w).line.echo = w.line.echo := by
  obtain ⟨-, -, -, -, -, echo, -⟩ := (settle_settles e fuel w).kept
  exact echo

@[simp] theorem settle_ownSpoils (e : Env) (fuel : Nat) (w : Works) :
    (settle e fuel w).line.ownSpoils = w.line.ownSpoils := by
  obtain ⟨-, -, -, -, -, -, -, own, -⟩ := (settle_settles e fuel w).kept
  exact own

/-! ### A frame handed over (R167) -/

/-- Handing over changes the line, the counters and the agenda alone. -/
theorem hand_eq (e : Env) (f : Frame) (p : TxPurpose) (w : Works) :
    ∃ l r a, w.hand e f p = { w with line := l, report := r, agenda := a } := by
  unfold Works.hand Works.unsent
  repeat' split
  all_goals exact ⟨_, _, _, rfl⟩

@[simp] theorem hand_jobs (e : Env) (f : Frame) (p : TxPurpose) (w : Works) : (w.hand e f p).jobs = w.jobs := by
  obtain ⟨_, _, _, eq⟩ := hand_eq e f p w
  rw [eq]

@[simp] theorem hand_flash (e : Env) (f : Frame) (p : TxPurpose) (w : Works) : (w.hand e f p).flash = w.flash := by
  obtain ⟨_, _, _, eq⟩ := hand_eq e f p w
  rw [eq]

@[simp] theorem hand_channels (e : Env) (f : Frame) (p : TxPurpose) (w : Works) : (w.hand e f p).channels = w.channels := by
  obtain ⟨_, _, _, eq⟩ := hand_eq e f p w
  rw [eq]

@[simp] theorem hand_zones (e : Env) (f : Frame) (p : TxPurpose) (w : Works) : (w.hand e f p).zones = w.zones := by
  obtain ⟨_, _, _, eq⟩ := hand_eq e f p w
  rw [eq]

@[simp] theorem hand_trunks (e : Env) (f : Frame) (p : TxPurpose) (w : Works) : (w.hand e f p).trunks = w.trunks := by
  obtain ⟨_, _, _, eq⟩ := hand_eq e f p w
  rw [eq]

/-- A frame handed over leaves the fault set. -/
@[simp] theorem hand_faults (e : Env) (f : Frame) (p : TxPurpose) (w : Works) :
    (w.hand e f p).report.faults = w.report.faults := by
  unfold Works.hand Works.unsent
  repeat' split
  all_goals rfl

@[simp] theorem hand_echo (e : Env) (f : Frame) (p : TxPurpose) (w : Works) : (w.hand e f p).line.echo = w.line.echo := by
  obtain ⟨-, -, -, -, -, echo, -⟩ := (Works.hand_moves (w0 := w) e f p .refl).kept
  exact echo

/-- A frame that is neither SEIZE nor ZONE-ASK leaves no work to a block when it is not sent. -/
abbrev Frame.untold (f : Frame) : Prop :=
  match f.payload with
  | .seize _ _ _ | .zoneAsk _ _ _ _ => False
  | _ => True

theorem unsent_agenda {f : Frame} (p : TxPurpose) (w : Works) (untold : Frame.untold f) :
    (w.unsent f p).agenda = w.agenda := by
  unfold Works.unsent
  unfold Frame.untold at untold
  split at untold <;> simp_all

/-- A class-3 frame removes no other from the queue, so its refusal is all a block might hear of. -/
theorem hand_agenda_of_information {f : Frame} (e : Env) (p : TxPurpose) (w : Works) (cls : f.cls = .information)
    (untold : Frame.untold f) : (w.hand e f p).agenda = w.agenda := by
  unfold Works.hand
  split
  · rfl
  · split
    · exact unsent_agenda p w untold
    · split
      · rfl
      · exact unsent_agenda p w untold

/-- With a place in the queue no frame is refused, so no block hears of one. -/
theorem hand_agenda_of_room {f : Frame} {e : Env} (p : TxPurpose) {w : Works} (line : e.onLine) (room : w.room) :
    (w.hand e f p).agenda = w.agenda := by
  rw [hand_of_room f p line room]
  rfl

/-- One event leaves the fault set as its change makes it (R180). -/
@[simp] theorem faultEvent_faults (e : Env) (f : FaultSet → FaultSet) (w : Works) :
    (w.faultEvent e f).report.faults = f w.report.faults := by
  unfold Works.faultEvent
  split
  · exact (by assumption : f w.report.faults = w.report.faults).symm
  · dsimp only
    rw [hand_faults]
    rfl

/-- An event of the fault set changes the line, the reports and the agenda alone. -/
theorem faultEvent_eq (e : Env) (f : FaultSet → FaultSet) (w : Works) :
    ∃ l r a, w.faultEvent e f = { w with line := l, report := r, agenda := a } := by
  unfold Works.faultEvent
  split
  · exact ⟨_, _, _, rfl⟩
  · obtain ⟨l, r, a, eq⟩ := hand_eq e (mkFrame e .safety 0 (.fault { seq := (w.report.seq + 1) % 256, set := f w.report.faults }))
      .plain ({ w with report := { w.report with faults := f w.report.faults, seq := (w.report.seq + 1) % 256 } }.bump .faultChanges)
    exact ⟨l, r, a, eq⟩

/-- An event that leaves the fault set as it is does nothing. -/
theorem faultEvent_of_same {e : Env} {f : FaultSet → FaultSet} {w : Works} (same : f w.report.faults = w.report.faults) :
    w.faultEvent e f = w := if_pos same

@[simp] theorem faultEvent_echo (e : Env) (f : FaultSet → FaultSet) (w : Works) :
    (w.faultEvent e f).line.echo = w.line.echo := by
  unfold Works.faultEvent
  split
  · rfl
  · exact hand_echo e _ _ _

/-! ### Job records -/

/-- The record found for a tag is one of that tag. -/
theorem tag_of_job {w : Works} {tag : Nat} {r : JobRec} (found : w.job tag = some r) : r.tag = tag := by
  simpa using List.find?_some found

/-- Looking up a record after the one with a tag has been changed. -/
theorem job_modJob {f : JobRec → JobRec} (keeps : ∀ r, (f r).tag = r.tag) (tag other : Nat) (w : Works) :
    (w.modJob tag f).job other = (w.job other).map (fun r => if r.tag = tag then f r else r) := by
  have number : (fun r : JobRec => decide (r.tag = other)) ∘ (fun r => if r.tag = tag then f r else r)
      = fun r => decide (r.tag = other) := by
    funext r
    by_cases here : r.tag = tag <;> simp [here, keeps]
  simp only [Works.job, Works.modJob, List.find?_map, number]

/-- The changed record is the one found at its tag. -/
theorem job_modJob_same {w : Works} {f : JobRec → JobRec} {tag : Nat} {r : JobRec} (keeps : ∀ r, (f r).tag = r.tag)
    (found : w.job tag = some r) : (w.modJob tag f).job tag = some (f r) := by
  simp [job_modJob keeps, found, tag_of_job found]

/-- The one record of a table. -/
theorem job_of_one {w : Works} {r : JobRec} (one : w.jobs.recs = [r]) : w.job r.tag = some r := by
  simp [Works.job, one]

theorem liveJob_of_job {w : Works} {tag : Nat} {r : JobRec} (found : w.job tag = some r)
    (live : r.state.inProgress = true) : w.liveJob tag = some r := by
  rw [Works.liveJob, found]
  exact Option.filter_some_pos live

theorem liveJob_of_waiting {w : Works} {tag : Nat} {r : JobRec} (found : w.job tag = some r)
    (waits : r.state.inProgress = false) : w.liveJob tag = none := by
  rw [Works.liveJob, found]
  exact Option.filter_some_neg (by simp [waits])

theorem job_of_liveJob {w : Works} {tag : Nat} {r : JobRec} (live : w.liveJob tag = some r) :
    w.job tag = some r ∧ r.state.inProgress = true := Option.filter_eq_some_iff.mp live

/-- A change of the only record. -/
theorem recs_modJob_of_one {w : Works} {r : JobRec} (f : JobRec → JobRec) (one : w.jobs.recs = [r]) :
    (w.modJob r.tag f).jobs.recs = [f r] := by
  simp [Works.modJob, one]

/-! ### The end of a job (R70, R71) -/

/-- A record that is not in progress has nothing gathered to give up. -/
theorem releaseGathering_of_waiting {w : Works} (e : Env) {tag : Nat} (waits : w.liveJob tag = none) :
    w.releaseGathering e tag = w := by
  simp [Works.releaseGathering, waits]

/-- The only record leaves the table with its job. -/
theorem recs_endJob_of_one {w : Works} (e : Env) {r : JobRec} (code : Code) (one : w.jobs.recs = [r]) :
    (w.endJob e r.tag code).jobs.recs = [] := by
  have shorter := Works.endJob_shorter e r.tag code w (by simp [one])
  rw [one] at shorter
  exact List.eq_nil_of_length_eq_zero (Nat.lt_one_iff.mp shorter)

@[simp] theorem keepLastAired_agenda (e : Env) (r : JobRec) (w : Works) : (w.keepLastAired e r).agenda = w.agenda := by
  unfold Works.keepLastAired
  split
  · split <;> rfl
  · rfl

/-- A JOB-REPORT leaves no work to other blocks. -/
@[simp] theorem takeReport_agenda (e : Env) (b : ReportBody) (w : Works) : (w.takeReport e b).agenda = w.agenda := by
  have sent (v : Works) : (v.hand e (mkFrame e .information 0 (.jobReport b)) .plain).agenda = v.agenda :=
    hand_agenda_of_information e .plain v rfl trivial
  unfold Works.takeReport
  cases b.code.group <;> dsimp only <;> split
  all_goals simp [sent]

/-- A record that holds no channel and no gathering ends without work to other blocks. -/
theorem endJob_agenda_of_waiting {w : Works} (e : Env) {tag : Nat} {r : JobRec} (code : Code) (found : w.job tag = some r)
    (waits : r.state.inProgress = false) (channel : r.channel = none) : (w.endJob e tag code).agenda = w.agenda := by
  have still (c : Code) (n : Nat) :
      (w.modJob tag (fun r => { r with ending := some c, remaining := n })).liveJob tag = none :=
    liveJob_of_waiting (job_modJob_same (fun _ => rfl) found) waits
  unfold Works.endJob
  simp [found, channel, releaseGathering_of_waiting e (still _ _)]

/-! ### The look for a dispatch (R56) -/

/-- With no record eligible a look for a dispatch does nothing. -/
theorem dispatchOne_of_none {e : Env} {w : Works} (none : ∀ r ∈ w.jobs.recs, eligible e r = false) :
    w.dispatchOne e = w := by
  have empty : w.jobs.recs.filter (eligible e) = [] := List.filter_eq_nil_iff.mpr (by simpa using none)
  unfold Works.dispatchOne
  split
  · simp [empty, bestBy]
  · rfl

theorem dispatch_of_none {e : Env} {w : Works} (none : ∀ r ∈ w.jobs.recs, eligible e r = false) : w.dispatch e = w := by
  rw [Works.dispatch, dispatchOne_of_none none, dispatchOne_of_none none]

theorem eligible_of_not_queued {e : Env} {r : JobRec} (state : r.state ≠ .queued) : eligible e r = false := by
  simp [eligible, state]

/-- A dispatch looked for in vain settles to what stood. -/
theorem settle_dispatch_of_none {e : Env} {w : Works} (rested : w.agenda = [])
    (none : ∀ r ∈ w.jobs.recs, eligible e r = false) : settle e settleFuel (w.post .dispatch) = w := by
  have done : handle e .dispatch w = w := dispatch_of_none none
  rw [settle_post e .dispatch rested (by rw [done]; exact rested), done]

end Sys2Proof.Proofs.Commands
end


section
/-! Reset and participation: start reset, the LISTEN timer, QUIET and WAKE, the ends of ISOLATED (chapter 9). -/

namespace Sys2Proof.Proofs.Participation

open Sys2Proof Sys2Proof.Machine Sys2Proof.Proofs.Effects Sys2Proof.Proofs.Reports Sys2Proof.Proofs.Commands

/-! ### Start reset (R179) -/

theorem atStart_reset (now : Instant) (pins : Pins) : Node.atStart { env := Env.reset now pins, ws := Works.reset } :=
  ⟨rfl, rfl, rfl, rfl, rfl, rfl, rfl, rfl, rfl, rfl, rfl, rfl, rfl, rfl, rfl, rfl, rfl, rfl, rfl, rfl, rfl, rfl, rfl,
    show ∀ s ∈ Works.reset.flash.streams, _ by decide, show ∀ s ∈ Works.reset.flash.streams, s.budget = 3 by decide, rfl,
    show ∀ c ∈ Works.reset.channels, _ by decide, rfl, rfl, rfl, rfl, rfl, rfl, rfl, rfl, rfl, rfl, rfl, rfl, rfl, rfl⟩

/-- Settles O3, from the tables right after reset. -/
theorem startResetValues : Obligations.StartResetValues :=
  ⟨rfl, atStart_reset 0 Pins.reset, fun s =>
    ⟨_, exec_of_effect_rested (c := .startReset) rfl rfl, atStart_reset s.env.now s.env.pins, rfl, rfl, rfl⟩⟩

/-! ### LISTEN, ACTIVE, QUIET (R69, R175, R176) -/

theorem listenExpires_of_listen {n : Node} (state : n.env.part.state = .listen)
    (timer : n.env.part.listenTimer.isSome = true) :
    listenExpires n = { env := { n.env with part := { n.env.part with state := .active, listenTimer := none } },
                        ws := n.ws.post .dispatch } := if_pos ⟨state, timer⟩

theorem quietTaken_of_active {n : Node} (state : n.env.part.state = .active) :
    quietTaken n = { n.setState .quiet with ws := (n.ws.quietJobs (n.setState .quiet).env).post .dispatch } := if_pos state

theorem quietTaken_of_not_active {n : Node} (state : n.env.part.state ≠ .active) : quietTaken n = n := if_neg state

theorem wakeTaken_of_quiet {n : Node} (state : n.env.part.state = .quiet) :
    wakeTaken n = { n.setState .active with ws := n.ws.post .dispatch } := if_pos state

theorem wakeTaken_of_not_quiet {n : Node} (state : n.env.part.state ≠ .quiet) : wakeTaken n = n := if_neg state

theorem actQuiet_of_payload {f : Frame} (payload : f.payload = .control .quiet) : actQuiet f = some quietTaken := by
  simp [actQuiet, payload]

theorem actWake_of_payload {f : Frame} (payload : f.payload = .control .wake) : actWake f = some wakeTaken := by
  simp [actWake, payload]

theorem quietJobs_of_no_jobs {w : Works} (e : Env) (empty : w.jobs.recs = []) : w.quietJobs e = w := by
  simp [Works.quietJobs, empty]

/-- Entry to QUIET with one record of a suppressed class. -/
theorem quietJobs_of_one {w : Works} (e : Env) {r : JobRec} (one : w.jobs.recs = [r]) (low : 2 ≤ r.cls.rank) :
    w.quietJobs e = w.quietJob e r := by
  simp [Works.quietJobs, one, Cls.isLow, low]

/-- Settles O5. -/
theorem participationChanges : Obligations.ParticipationChanges := by
  refine ⟨⟨?listen, ?quiet, ?wake, ?elsewhere⟩, ?suppressed⟩
  case listen =>
    intro s state timer
    refine ⟨_, exec_of_effect (c := .listenTimerExpiry) (listenExpires_of_listen state timer), rfl, fun rested empty => ?_⟩
    exact settle_dispatch_of_none (w := s.ws) rested (by simp [empty])
  case quiet =>
    intro s f rest head payload state
    refine ⟨_, exec_of_effect ((effect_of_passes (c := .quiet) rfl head (actQuiet_of_payload payload)).trans
      (quietTaken_of_active state)), rfl, fun rested empty => ?_⟩
    dsimp only [State.ws, Node.settled]
    rw [quietJobs_of_no_jobs _ (w := s.taken rest) empty]
    exact settle_dispatch_of_none (w := s.taken rest) rested (by simp [empty])
  case wake =>
    intro s f rest head payload state
    refine ⟨_, exec_of_effect ((effect_of_passes (c := .wake) rfl head (actWake_of_payload payload)).trans
      (wakeTaken_of_quiet state)), rfl, fun rested empty => ?_⟩
    exact settle_dispatch_of_none (w := s.taken rest) rested (by simp [empty])
  case elsewhere =>
    intro s f rest rested head
    refine ⟨fun payload state => ?_, fun payload state => ?_⟩
    · exact exec_of_effect_rested ((effect_of_passes (c := .quiet) rfl head (actQuiet_of_payload payload)).trans
        (quietTaken_of_not_active state)) rested
    · exact exec_of_effect_rested ((effect_of_passes (c := .wake) rfl head (actWake_of_payload payload)).trans
        (wakeTaken_of_not_quiet state)) rested
  case suppressed =>
    intro s f rest r rested head payload state one low
    have quieted (e : Env) : (s.taken rest).quietJobs e = (s.taken rest).quietJob e r := quietJobs_of_one e one low
    have answer := exec_of_effect ((effect_of_passes (c := .quiet) rfl head (actQuiet_of_payload payload)).trans
      (quietTaken_of_active state))
    refine ⟨fun queued channel => ⟨_, answer, ?_⟩, fun airing => ⟨_, answer, ?_⟩⟩
    all_goals
      dsimp only [State.ws, Node.settled]
      rw [quieted]
    · have ends (e : Env) : (s.taken rest).quietJob e r = (s.taken rest).endJob e r.tag (quietCode r) := by
        simp [Works.quietJob, queued]
      have gone (e : Env) := recs_endJob_of_one (w := s.taken rest) e (quietCode r) one
      rw [ends, settle_dispatch_of_none]
      · exact gone _
      · exact (endJob_agenda_of_waiting (w := s.taken rest) _ _ (job_of_one one) (by simp [queued, JobState.inProgress]) channel).trans
          rested
      · simp [gone]
    · have marked (e : Env) : (s.taken rest).quietJob e r
          = (s.taken rest).modJob r.tag (fun r => { r with lastMark := true }) := by
        simp [Works.quietJob, airing]
      have recs : ((s.taken rest).modJob r.tag (fun r => { r with lastMark := true })).jobs.recs
          = [{ r with lastMark := true }] := recs_modJob_of_one _ one
      rw [marked, settle_dispatch_of_none (by exact rested)]
      · exact recs
      · simp [recs, eligible_of_not_queued, airing]

/-! ### ISOLATED (R171, R177, R183) -/

theorem isolationExpires_of_isolated {n : Node} (state : n.env.part.state = .isolated)
    (timer : n.env.part.isolationTimer.isSome = true) :
    isolationExpires n =
      { env := { n.env with part := { n.env.part with isolationTimer := some (n.env.now + sec 10) } },
        ws := if n.ws.line.hasIsolationProfile then n.ws
              else n.ws.hand { n.env with part := { n.env.part with isolationTimer := some (n.env.now + sec 10) } }
                (profileFrame n.env n.ws false) .isolationProfile } := if_pos ⟨state, timer⟩

/-- In ISOLATED the isolation PROFILE, and it alone, is queued where there is a place. -/
theorem hand_isolationProfile {e : Env} {w : Works} (f : Frame) (state : e.part.state = .isolated) (room : w.room) :
    w.hand e f .isolationProfile = w.queueFrame f .isolationProfile := by
  simp [Works.hand, state, room]

/-- The end of ISOLATED, by what it leaves. -/
theorem isolationEnds_of_isolated {n : Node} (state : n.env.part.state = .isolated) :
    (isolationEnds n).env = { n.env with part := { n.env.part with
        state := .listen, listenTimer := some (n.env.now + sec 2), isolationTimer := none } }
      ∧ (isolationEnds n).ws.line.echo = n.ws.line.echo
      ∧ (isolationEnds n).ws.report.faults = { n.ws.report.faults with isolatedRecovered := true } := by
  rw [isolationEnds, if_pos state]
  refine ⟨rfl, ?_, ?_⟩
  · exact (hand_echo _ _ _ _).trans (faultEvent_echo _ _ _)
  · exact (hand_faults _ _ _ _).trans (faultEvent_faults _ _ _)

/-- The echo of the PROFILE of an entry to LISTEN, by what it leaves. -/
theorem recoveryHeard_leaves (n : Node) :
    (recoveryHeard n).ws.line.echo = n.ws.line.echo
      ∧ (recoveryHeard n).ws.report.faults =
          if n.env.part.state = .isolated then n.ws.report.faults
          else { n.ws.report.faults with isolatedRecovered := false } := by
  unfold recoveryHeard
  split
  · exact ⟨rfl, rfl⟩
  · exact ⟨faultEvent_echo _ _ _, faultEvent_faults _ _ _⟩

theorem echoEffect_isolationProfile {x : EchoPlace} {b : ProfileBody} (n : Node) (payload : x.frame.payload = .profile b)
    (purpose : x.purpose = .isolationProfile) : echoEffect x n = isolationEnds n := by
  simp [echoEffect, payload, purpose]

theorem echoEffect_listenProfile {x : EchoPlace} {b : ProfileBody} (n : Node) (payload : x.frame.payload = .profile b)
    (purpose : x.purpose = .listenProfile) : echoEffect x n = recoveryHeard n := by
  simp [echoEffect, payload, purpose]

/-- Settles O6: the timer by whether a PROFILE is queued, the echoes by what the end of ISOLATED and the recovery leave. -/
theorem isolationEndsByItsProfile : Obligations.IsolationEndsByItsProfile := by
  refine ⟨?timer, ?ended, ?heard⟩
  case timer =>
    intro s rested state running e
    have expires := isolationExpires_of_isolated state running
    refine ⟨fun queued => ?_, fun absent room => ?_⟩
    · rw [if_pos queued] at expires
      exact exec_of_effect_rested (c := .isolationTimerExpiry) expires rested
    · rw [if_neg (by simp [absent])] at expires
      have handed := hand_isolationProfile (e := e) (profileFrame s.env s.ws false) state room
      exact exec_of_effect_rested (c := .isolationTimerExpiry) (expires.trans (congrArg (Node.mk e) handed)) rested
  case ended =>
    intro s x b due purpose payload state
    have wanted : (x.isProfile && decide (x.purpose = .isolationProfile)) = true := by
      simp [EchoPlace.isProfile, payload, purpose]
    obtain ⟨env, echo, faults⟩ := isolationEnds_of_isolated (n := { s.node with ws := s.echoGone }) state
    refine ⟨_, exec_of_effect ((effect_of_echoDue (c := .isolationProfileEcho) rfl due wanted).trans
      (echoEffect_isolationProfile _ payload purpose)), env,
      (settle_echo _ _ _).trans echo, (settle_faults _ _ _).trans faults⟩
  case heard =>
    intro s x b due purpose payload
    have wanted : (x.isProfile && decide (x.purpose = .listenProfile)) = true := by
      simp [EchoPlace.isProfile, payload, purpose]
    obtain ⟨echo, faults⟩ := recoveryHeard_leaves { s.node with ws := s.echoGone }
    refine ⟨_, exec_of_effect ((effect_of_echoDue (c := .profileEcho) rfl due wanted).trans
      (echoEffect_listenProfile _ payload purpose)), Surroundings.recoveryHeard_env _,
      (settle_echo _ _ _).trans echo, (settle_faults _ _ _).trans faults⟩

end Sys2Proof.Proofs.Participation
end


section
/-! The station line (sections 9.1 to 9.3): own frames started, sent and spoiled, frames received, echoes delivered, and the
PROFILE of another node. -/

namespace Sys2Proof.Proofs.StationLine

open Sys2Proof Sys2Proof.Machine Sys2Proof.Proofs.Effects Sys2Proof.Proofs.Reports Sys2Proof.Proofs.Commands

/-! ### Own frames (R164 to R166) -/

/-- A frame passes arbitration when no rival's field is lower. -/
theorem passesArbitration_iff (f : Frame) (rivals : List Nat) :
    f.passesArbitration rivals = true ↔ ∀ r ∈ rivals, 64 * f.cls.rank + f.source ≤ r := by
  rw [Frame.passesArbitration, List.all_eq_true]
  exact forall₂_congr fun r _ => decide_eq_true_iff

theorem compareCheck_true (w : Works) :
    w.compareCheck true = { w with line := { w.line with spoilRun := 0, spoilSlot := false } } := rfl

/-- A check that disagrees is counted, and spoils the frame while the run is below 16. -/
theorem compareCheck_false (w : Works) :
    w.compareCheck false = { w with line := { w.line with
        spoilRun := if w.line.spoilRun < 16 then w.line.spoilRun + 1 else w.line.spoilRun,
        spoilSlot := decide (w.line.spoilRun < 16) } }.bump .spoils := by
  by_cases below : w.line.spoilRun < 16 <;> simp [Works.compareCheck, below]

theorem sending_eq_none {l : Line} (h : ∀ x ∈ l.tx, x.sending = false) : l.sending = none := by
  simpa [Line.sending] using h

/-- Settles O8: FRAME_START by arbitration, the end of an own frame by its check and the spoil run. -/
theorem ownFramesStartAndPass : Obligations.OwnFramesStartAndPass := by
  refine ⟨?starts, ?sent⟩
  case starts =>
    intro s head rest rested state echo queue idle field rivals
    have quiet : s.ws.line.sending = none := sending_eq_none (queue ▸ idle)
    have effect_eq : effect (.frameStart rivals) s.node =
        if head.frame.passesArbitration rivals then
          { s.node with ws := { s.ws with line := { s.ws.line with tx := { head with sending := true } :: rest } } }
        else s.node := by
      have state : s.node.env.part.state ≠ .start := state
      have quiet : s.node.ws.line.sending = none := quiet
      simp [effect, frameStarts, queue, state, echo, quiet]
    refine ⟨fun below => ?_, fun ⟨r, rival, above⟩ => ?_⟩
    · rw [if_pos ((passesArbitration_iff _ _).mpr fun r hr => (below r hr).le)] at effect_eq
      exact exec_of_effect_rested effect_eq rested
    · rw [if_neg fun passes => absurd ((passesArbitration_iff _ _).mp passes r rival) (Nat.not_le_of_lt above)] at effect_eq
      exact exec_of_effect_rested effect_eq rested
  case sent =>
    intro s x rested found sent unheard
    have sending : s.node.ws.line.sending = some x := found
    refine ⟨?_, fun run => ?_, fun run => ?_⟩
    · refine exec_of_effect_rested (c := .ownFrameSent true) ?_ rested
      simp only [effect, ownFrameSent, sending]
      rfl
    · refine exec_of_effect_rested (c := .ownFrameSent false) ?_ rested
      simp only [effect, ownFrameSent, sending, compareCheck_false]
      have not_below : ¬ s.node.ws.line.spoilRun < 16 := Nat.not_lt_of_le run
      simp only [not_below]
      rfl
    · refine exec_of_effect_rested (c := .ownFrameSent false) ?_ rested
      have below : s.node.ws.line.spoilRun < 16 := run
      simp [effect, ownFrameSent, sending, below]

theorem takesAsks_of_onLine {e : Env} (line : e.onLine) : takesAsks e.part.state = true := by
  rcases line with state | state | state <;> simp [takesAsks, state]

theorem spoilsLeft_of_onLine {e : Env} (line : e.onLine) (count : Nat) : spoilsLeft e.part.state count = count - 1 := by
  rcases line with state | state | state <;> simp [spoilsLeft, state]

/-- The queue after the spoiling of an own frame (R166): the frame is back at its place, or lost. -/
def spoiledQueue (x : TxFrame) (l : List TxFrame) : List TxFrame :=
  if x.doomed = true ∨ x.purpose = .isolationProfile then l.filter (fun y => !y.sending)
  else l.map (fun y => { y with sending := false })

theorem requeue_eq (x : TxFrame) (l : Line) : l.requeue x = { l with tx := spoiledQueue x l.tx } := by
  by_cases lost : x.doomed = true ∨ x.purpose = .isolationProfile
    <;> simp [Line.requeue, TxFrame.lostIfSpoiled, Line.dropSent, spoiledQueue, lost]

/-- The works after the spoiling of an own frame, the node's own entry to ISOLATED apart. -/
def spoiledWorks (agreed : Bool) (x : TxFrame) (w : Works) : Works :=
  Works.bump .spoils { w with line := { w.line with
    tx := spoiledQueue x w.line.tx, ownSpoils := w.line.ownSpoils - 1,
    spoilRun := if agreed = true then 0 else if w.line.spoilRun < 16 then w.line.spoilRun + 1 else w.line.spoilRun,
    spoilSlot := !agreed && decide (w.line.spoilRun < 16) } }

/-- An own frame that ends spoiled, on the line. -/
theorem ownFrameSpoiled_of_onLine {n : Node} {x : TxFrame} (agreed : Bool) (found : n.ws.line.sending = some x)
    (line : n.env.onLine) :
    ownFrameSpoiled agreed n =
      if n.ws.line.ownSpoils - 1 = 0 then enterIsolated { n with ws := spoiledWorks agreed x n.ws }
      else { n with ws := spoiledWorks agreed x n.ws } := by
  have left (w : Works) := spoilsLeft_of_onLine line w.line.ownSpoils
  unfold ownFrameSpoiled
  simp only [found, left, takesAsks_of_onLine line, true_and, requeue_eq]
  cases agreed with
  | true => simp [compareCheck_true, spoiledWorks, Works.bump]
  | false => simp [compareCheck_false, spoiledWorks, Works.bump]

/-- Entry to ISOLATED, by what it leaves. -/
theorem enterIsolated_leaves_line (n : Node) :
    (enterIsolated n).ws.line.rx = [] ∧ (enterIsolated n).ws.line.ownSpoils = n.ws.line.ownSpoils
      ∧ (enterIsolated n).ws.trunks = [none, none, none, none] := by
  unfold enterIsolated
  dsimp only
  obtain ⟨trunks, -, -, -, rx, -, -, own, -⟩ := (Works.isolateZones_moves _
    (Moves.foldl _ (fun _ _ => Works.isolateJob_moves _ _ .refl) _ .refl)).kept
  exact ⟨rx, own, trunks⟩

/-- Settles O9: the frame goes back to its place or is lost, and the eighth spoil isolates the node. -/
theorem ownFrameSpoiledCountsToIsolation : Obligations.OwnFrameSpoiledCountsToIsolation := by
  intro s x agreed found line
  have spoiled := ownFrameSpoiled_of_onLine (n := s.node) agreed found line
  refine ⟨fun rested more => ?_, fun last => ?_⟩
  · rw [if_neg (by have : 2 ≤ s.node.ws.line.ownSpoils := more; omega)] at spoiled
    exact exec_of_effect_rested (c := .ownFrameSpoiled agreed) spoiled rested
  · have last : s.node.ws.line.ownSpoils - 1 = 0 := by have : s.node.ws.line.ownSpoils ≤ 1 := last; omega
    rw [if_pos last] at spoiled
    obtain ⟨rx, own, trunks⟩ := enterIsolated_leaves_line { s.node with ws := spoiledWorks agreed x s.ws }
    exact ⟨_, exec_of_effect (c := .ownFrameSpoiled agreed) spoiled, rfl, (settle_rx _ _ _).trans rx,
      (settle_ownSpoils _ _ _).trans (own.trans last), (settle_trunks _ _ _).trans trunks⟩

/-! ### Frames received (R165, R168) -/

/-- The source a decoded frame names stands in its first byte (Table 11-1). -/
theorem source_of_decodeFrame {bytes : List Byte} {f : Frame} (h : decodeFrame bytes = some f) :
    f.source = byteAt bytes 0 % 64 := by
  unfold decodeFrame at h
  dsimp only at h
  split at h
  · exact absurd h (by simp)
  · obtain ⟨p, -, rfl⟩ := Option.map_eq_some_iff.mp h
    rfl

/-- A frame of another station on the line outside START. -/
theorem frameReceived_of_other {n : Node} {bytes : List Byte} (spoiled : Bool) (state : n.env.part.state ≠ .start)
    (other : isOwnFrame n.ws.line bytes = false) :
    frameReceived bytes spoiled n =
      let m := { n with ws := n.ws.compareCheck (frameGood bytes) }
      if frameGood bytes = false then m else if spoiled then m.bump .spoils else goodFrame bytes m := by
  simp [frameReceived, state, other]

/-- A good, unspoiled frame of another node is decoded and filtered. -/
theorem goodFrame_of_decoded {n : Node} {bytes : List Byte} {f : Frame} (decoded : decodeFrame bytes = some f) :
    goodFrame bytes n = if f.source = n.env.part.node then n else filterFrame f n := by
  simp [goodFrame, source_of_decodeFrame decoded, decoded]

/-- The tests of R168 on a frame that passes them all. -/
theorem filterFrame_of_taken {n : Node} {f : Frame} (dest : f.dest = 0 ∨ f.dest = n.env.part.node)
    (interest : ofInterest n.env n.ws f = true) (fresh : isDuplicate n.env f = false)
    (room : n.ws.line.rx.length < rxCapacity) :
    filterFrame f n = { env := n.env.modPeer f.source (recordBit f.alt f.payload),
                        ws := { n.ws with line := { n.ws.line with rx := n.ws.line.rx ++ [f] } } } := by
  have here : ¬ (f.dest ≠ 0 ∧ f.dest ≠ n.env.part.node) := fun ⟨all, own⟩ => dest.elim all own
  simp [filterFrame, here, interest, fresh, Nat.not_le_of_lt room]

/-- A frame for another node, or of no interest. -/
theorem filterFrame_of_ignored {n : Node} {f : Frame}
    (ignored : (f.dest ≠ 0 ∧ f.dest ≠ n.env.part.node) ∨ ofInterest n.env n.ws f = false) : filterFrame f n = n := by
  unfold filterFrame
  rcases ignored with elsewhere | dull
  · exact if_pos elsewhere
  · simp [dull]

/-- A frame of interest that is a duplicate. -/
theorem filterFrame_of_duplicate {n : Node} {f : Frame} (dest : f.dest = 0 ∨ f.dest = n.env.part.node)
    (interest : ofInterest n.env n.ws f = true) (copy : isDuplicate n.env f = true) :
    filterFrame f n = n.bump .duplicatesDropped := by
  have here : ¬ (f.dest ≠ 0 ∧ f.dest ≠ n.env.part.node) := fun ⟨all, own⟩ => dest.elim all own
  simp [filterFrame, here, interest, copy]

/-- A frame of interest that meets a full FIFO. -/
theorem filterFrame_of_full {n : Node} {f : Frame} (dest : f.dest = 0 ∨ f.dest = n.env.part.node)
    (interest : ofInterest n.env n.ws f = true) (fresh : isDuplicate n.env f = false)
    (full : rxCapacity ≤ n.ws.line.rx.length) : filterFrame f n = n.bump .receiveOverruns := by
  have here : ¬ (f.dest ≠ 0 ∧ f.dest ≠ n.env.part.node) := fun ⟨all, own⟩ => dest.elim all own
  simp [filterFrame, here, interest, fresh, full]

/-- Settles O10, test by test of R165 and R168. -/
theorem framesReceivedAreTakenOrCounted : Obligations.FramesReceivedAreTakenOrCounted := by
  refine ⟨?taken, ?counted, ?start⟩
  case taken =>
    intro s bytes f rested state other good decoded source dest interest fresh room
    refine exec_of_effect_rested (c := .frameReceived bytes false) ?_ rested
    refine (frameReceived_of_other (n := s.node) false state other).trans ?_
    simp only [good, compareCheck_true, Bool.true_eq_false, Bool.false_eq_true, if_false]
    rw [goodFrame_of_decoded decoded, if_neg source]
    exact filterFrame_of_taken dest interest fresh room
  case counted =>
    intro s bytes rested state other
    have heard (spoiled : Bool) := frameReceived_of_other (n := s.node) spoiled state other
    refine ⟨fun bad spoiled => ?_, fun good => ?_⟩
    · refine exec_of_effect_rested (c := .frameReceived bytes spoiled) ((heard spoiled).trans ?_) rested
      simp only [bad, compareCheck_false, if_true]
    · simp only [good, compareCheck_true, Bool.true_eq_false, if_false] at heard
      refine ⟨?_, fun malformed other => ?_, fun f decoded ignored => ?_, fun f decoded source dest interest => ⟨fun copy => ?_,
        fun fresh full => ?_⟩⟩
      · exact exec_of_effect_rested (c := .frameReceived bytes true) (heard true) rested
      · refine exec_of_effect_rested (c := .frameReceived bytes false) ((heard false).trans ?_) rested
        have other : byteAt bytes 0 % 64 ≠ s.node.env.part.node := other
        simp [goodFrame, other, malformed]
        rfl
      · refine exec_of_effect_rested (c := .frameReceived bytes false) ((heard false).trans ?_) rested
        rw [if_neg Bool.false_ne_true, goodFrame_of_decoded decoded]
        split
        · rfl
        · rename_i source
          exact filterFrame_of_ignored (ignored.resolve_left source)
      · refine exec_of_effect_rested (c := .frameReceived bytes false) ((heard false).trans ?_) rested
        rw [if_neg Bool.false_ne_true, goodFrame_of_decoded decoded, if_neg source]
        exact filterFrame_of_duplicate dest interest copy
      · refine exec_of_effect_rested (c := .frameReceived bytes false) ((heard false).trans ?_) rested
        rw [if_neg Bool.false_ne_true, goodFrame_of_decoded decoded, if_neg source]
        exact filterFrame_of_full dest interest fresh full
  case start =>
    intro s bytes spoiled rested state
    refine exec_of_effect_rested (c := .frameReceived bytes spoiled) ?_ rested
    have state : s.node.env.part.state = .start := state
    simp [effect, frameReceived, state]

/-! ### Echoes (R131, R141, R166) -/

/-- The echo of a plain frame other than SEIZE and FREE is waited for by no block. -/
theorem echoEffect_plain {x : EchoPlace} (n : Node) (plain : x.purpose = .plain)
    (other : match x.frame.payload with | .seize _ _ _ | .free _ _ | .zoneAsk _ _ _ _ => False | _ => True) :
    echoEffect x n = n := by
  unfold echoEffect
  split <;> simp_all

theorem echoEffect_ask {x : EchoPlace} {tag trunk duration serial : Nat} {zones : List Nat} (n : Node)
    (payload : x.frame.payload = .zoneAsk tag trunk duration zones) (purpose : x.purpose = .ask serial) :
    echoEffect x n = { n with ws := n.ws.startAnswers n.env tag serial } := by
  simp [echoEffect, payload, purpose]

/-- The remote homes the answer timers are started for, each once (R141). -/
theorem startAnswers_of_round {e : Env} {w : Works} {tag serial : Nat} {r : JobRec} (live : w.liveJob tag = some r)
    (phase : r.gathering.phase = .zones ∨ r.gathering.phase = .ready) (ask : r.gathering.ask = some serial) :
    w.startAnswers e tag serial = w.modGather tag (fun g => { g with
      answers := (firstPlaces ((r.gathering.grants.filter (fun g => !g.isDropped)).filterMap
        (fun g => match g.home with | .remote n => some n | _ => none))).map (fun n => (n, e.now + sec 1)) }) := by
  rw [Works.startAnswers, live]
  exact if_pos ⟨phase, ask⟩

theorem startAnswers_of_other {e : Env} {w : Works} {tag serial : Nat}
    (other : ∀ r, w.liveJob tag = some r → r.gathering.ask ≠ some serial) : w.startAnswers e tag serial = w := by
  unfold Works.startAnswers
  cases live : w.liveJob tag with
  | none => rfl
  | some r => simp [other r live]

/-- An echo of a ZONE-ASK that no block waits for: its job is gone. -/
theorem echoEffect_ask_of_gone {x : EchoPlace} {tag trunk duration : Nat} {zones : List Nat} (n : Node)
    (payload : x.frame.payload = .zoneAsk tag trunk duration zones) (gone : n.ws.liveJob tag = none) :
    echoEffect x n = n := by
  unfold echoEffect
  split <;> simp_all [startAnswers_of_other]

/-- Settles O11: by whose frame it is, and for a ZONE-ASK by its serial and its job. -/
theorem echoesLeaveTheEchoPlace : Obligations.EchoesLeaveTheEchoPlace := by
  have asks {x : EchoPlace} {tag trunk duration : Nat} {zones : List Nat}
      (payload : x.frame.payload = .zoneAsk tag trunk duration zones) : x.isZoneAsk = true := by
    simp [EchoPlace.isZoneAsk, payload]
  refine ⟨?plain, ?round, ?gone⟩
  case plain =>
    intro s x rested due plain other
    exact exec_of_effect_rested ((effect_of_echoDue (c := .echo) rfl due rfl).trans (echoEffect_plain _ plain other)) rested
  case round =>
    intro s x tag trunk duration serial zones r rested due payload purpose live
    have effect_eq := (effect_of_echoDue (c := .zoneAskEcho) rfl due (asks payload)).trans (echoEffect_ask _ payload purpose)
    refine ⟨fun ask phase => ?_, fun other => ?_⟩
    · dsimp only at effect_eq
      rw [startAnswers_of_round (w := s.echoGone) live phase ask] at effect_eq
      exact exec_of_effect_rested effect_eq rested
    · dsimp only at effect_eq
      rw [startAnswers_of_other (w := s.echoGone) (fun r' live' => Option.some.inj (live.symm.trans live') ▸ other)] at effect_eq
      exact exec_of_effect_rested effect_eq rested
  case gone =>
    intro s x tag trunk duration zones rested due payload gone
    exact exec_of_effect_rested ((effect_of_echoDue (c := .zoneAskEcho) rfl due (asks payload)).trans
      (echoEffect_ask_of_gone _ payload gone)) rested

/-- Settles O12: the view takes the frame, and what the echo's owner does then changes neither view nor echo place. -/
theorem ownTrunkEchoesReachTheView : Obligations.OwnTrunkEchoesReachTheView := by
  refine ⟨?seize, ?free⟩
  case seize =>
    intro s x trunk tag hold due payload
    have effect_eq : effect .seizeEcho s.node
        = { s.node with ws := s.echoGone.seizeEchoed s.env x.frame trunk tag hold } :=
      (effect_of_echoDue (c := .seizeEcho) rfl due (by simp [EchoPlace.isSeize, payload])).trans
        (by simp [echoEffect, payload])
    obtain ⟨trunks, -, -, -, -, echo, -⟩ := (seizeEchoed_moves s.env x.frame trunk tag hold s.echoGone).kept
    refine ⟨_, exec_of_effect effect_eq, rfl, ?_, fun free => ?_, fun held => ?_⟩
    · refine (settle_echo _ _ _).trans (echo.trans ?_)
      unfold Works.applySeize
      split <;> rfl
    · refine (settle_trunks _ _ _).trans (trunks.trans ?_)
      have free : s.echoGone.trunk trunk = none := free
      simp only [Works.applySeize, free]
      rfl
    · refine (settle_trunks _ _ _).trans (trunks.trans ?_)
      obtain ⟨h, held⟩ := Option.ne_none_iff_exists'.mp held
      have held : s.echoGone.trunk trunk = some h := held
      simp only [Works.applySeize, held]
      rfl
  case free =>
    intro s x trunk tag h due payload held
    have effect_eq : effect .echo s.node = { s.node with ws := s.echoGone.applyFree s.env x.frame.source trunk } :=
      (effect_of_echoDue (c := .echo) rfl due rfl).trans (by simp [echoEffect, payload])
    have held : s.echoGone.trunk trunk = some h := held
    refine ⟨_, exec_of_effect effect_eq, ?_, ?_⟩
    all_goals
      simp only [State.ws, Node.settled, settle_echo, settle_trunks, Works.applyFree, held]
      obtain ⟨trunks, -, -, -, -, echo, -⟩ :=
        (Works.viewFreed_moves (w0 := s.echoGone.setTrunk trunk none) s.env .refl).kept
    · split
      · exact echo
      · rfl
    · split
      · exact trunks
      · rfl

/-! ### PROFILE of another node (R170) -/

/-- A list after the places of some zones have been set. -/
theorem getElem?_foldl_set {α : Type} (v : α) (zones : List Nat) (l : List α) (i : Nat) :
    (zones.foldl (fun m z => m.set (z - 1) v) l)[i]? = if ∃ z ∈ zones, z - 1 = i then l[i]?.map (fun _ => v) else l[i]? := by
  induction zones generalizing l with
  | nil => simp
  | cons z rest ih =>
    rw [List.foldl_cons, ih, List.getElem?_set']
    by_cases here : z - 1 = i
    · by_cases later : ∃ y ∈ rest, y - 1 = i <;> cases l[i]? <;> simp_all
    · simp [here]

/-- The map after a PROFILE (R170): its zones at its node, and the zones it no longer lists unknown. -/
theorem homeOf_claimZones {e m : Env} {source : Nat} {zones : List Nat} (listed : zonesOk zones)
    (homes : m.homes = claimZones source zones e.homes) {z : Nat} (low : 1 ≤ z) (high : z ≤ e.homes.length) :
    m.homeOf z = if z ∈ zones then some source else if e.homeOf z = some source then none else e.homeOf z := by
  have place : z - 1 < e.homes.length := by omega
  have number : z - 1 + 1 = z := by omega
  have claims : (∃ y ∈ zones, y - 1 = z - 1) ↔ z ∈ zones := by
    refine ⟨fun ⟨y, at_, same⟩ => ?_, fun at_ => ⟨z, at_, rfl⟩⟩
    have : y = z := by have := (listed y at_).1; omega
    exact this ▸ at_
  have zone : z ≠ 0 := by omega
  simp only [Env.homeOf, zone, if_false, homes, claimZones, getElem?_foldl_set, claims, List.getElem?_map,
    List.getElem?_range place, Option.map_some, number]
  by_cases at_ : z ∈ zones
  · simp [at_]
  · cases (e.homes[z - 1]?).join with
    | none => simp [at_]
    | some n => by_cases own : n = source <;> simp [at_, own]

/-- The peer table entry that changes (R169). -/
theorem peer_modPeer_same {e : Env} {node : Nat} (f : Peer → Peer) (low : 1 ≤ node) (high : node ≤ e.peers.length) :
    (e.modPeer node f).peer node = f (e.peer node) := by
  have named : node ≠ 0 := by omega
  have place : node - 1 < e.peers.length := by omega
  simp [Env.peer, Env.modPeer, named, place]

theorem peer_modPeer_of_ne {e : Env} {node other : Nat} (f : Peer → Peer) (low : 1 ≤ other) (ne : other ≠ node) :
    (e.modPeer node f).peer other = e.peer other := by
  unfold Env.modPeer
  split
  · rfl
  · have apart : node - 1 ≠ other - 1 := by omega
    simp [Env.peer, apart]

/-- Settles O13, from the map and the peer entry a PROFILE leaves. -/
theorem profileUpdatesMapAndPeer : Obligations.ProfileUpdatesMapAndPeer := by
  intro s f rest b head payload low high listed sized
  obtain ⟨-, -, peers, homes, -⟩ := sized
  have effect_eq : effect .profile s.node = takeProfile f.source b { s.node with ws := s.taken rest } :=
    effect_of_passes (c := .profile) rfl head (g := takeProfile f.source b) (by simp [actProfile, payload])
  have heard : ∀ n, (takeProfile f.source b { s.node with ws := s.taken rest }).env.peer n
      = (s.env.modPeer f.source (heardProfile b)).peer n := fun _ => rfl
  have own := peer_modPeer_same (e := s.env) (heardProfile b) low (high.trans peers.ge)
  have keeps : (s.env.modPeer f.source (heardProfile b)) = { s.env with
      peers := (s.env.modPeer f.source (heardProfile b)).peers } := by
    unfold Env.modPeer
    split <;> rfl
  refine ⟨_, exec_of_effect effect_eq, fun z zlow zhigh => ?_, ?_, fun request => ?_, fun silent => ?_,
    fun n nlow _ ne => ?_, ?_⟩
  · exact homeOf_claimZones (m := (takeProfile f.source b { s.node with ws := s.taken rest }).env) listed rfl zlow
      (zhigh.trans homes.ge)
  · refine (congrArg Peer.profile ((heard _).trans own)).trans ?_
    unfold heardProfile
    dsimp only
    split <;> rfl
  · have cleared : (takeProfile f.source b { s.node with ws := s.taken rest }).env.peer f.source = _ := (heard _).trans own
    simp only [heardProfile, request, if_true] at cleared
    simp only [State.env, Node.settled, cleared, and_self]
  · refine (congrArg Peer.annBit ((heard _).trans own)).trans ?_
    simp [heardProfile, silent]
  · exact (heard n).trans (peer_modPeer_of_ne _ nlow ne)
  · have same : (takeProfile f.source b { s.node with ws := s.taken rest }).env
        = { s.env.modPeer f.source (heardProfile b) with homes := claimZones f.source b.zones s.env.homes } := rfl
    rw [keeps] at same
    simp only [State.env, Node.settled, same, and_self]

end Sys2Proof.Proofs.StationLine
end


section
/-! Clock and calls (chapters 1 and 2): TIME and TICK, calls taken as new and revised, the timers of a slot, and the rule of
one ladder. -/

namespace Sys2Proof.Proofs.ClockAndCalls

open Sys2Proof Sys2Proof.Machine Sys2Proof.Proofs.Effects Sys2Proof.Proofs.Surroundings Sys2Proof.Proofs.Commands
open Sys2Proof.Proofs.StepAndClock

/-! ### The clock (R27 to R29) -/

theorem advance_eq {now : Instant} {c : Clock} (wf : c.wf) :
    (c.advance now).1 =
      { day := if c.second = 86399 then (if c.day = 65535 then 0 else c.day + 1) else c.day,
        second := if c.second = 86399 then 0 else c.second + 1, known := c.known, nextTick := some (now + sec 1) } := by
  obtain ⟨day, second⟩ := wf
  unfold Clock.advance
  by_cases midnight : c.second = 86399
  · by_cases last : c.day = 65535
    · simp [midnight, last]
    · have next : (c.day + 1) % 65536 = c.day + 1 := Nat.mod_eq_of_lt (by omega)
      simp [midnight, last, next]
  · have before : ¬ 86400 ≤ c.second + 1 := by omega
    simp [midnight, before]

theorem tickHappens_of_known {n : Node} (known : n.env.clock.known = true) (timer : n.env.clock.nextTick.isSome = true) :
    (tickHappens n).env.clock = (n.env.clock.advance n.env.now).1 := by
  unfold tickHappens
  rw [if_pos ⟨known, timer⟩]
  dsimp only
  exact clock_of_clockPass _ _

theorem part_of_takeTime (day second : Nat) (n : Node) : (takeTime day second n).env.part = n.env.part := by
  unfold takeTime
  dsimp only
  rw [(clockPass_callsFrom true (.refl _)).rest]

/-- The pass of a clock event leaves the fault set. -/
theorem faults_of_clockPass (window : Bool) (n : Node) : (clockPass window n).ws.report.faults = n.ws.report.faults := by
  obtain ⟨-, faults, -⟩ := (clockPass_moves (w0 := n.ws) window n .refl).kept
  exact faults

theorem faults_of_takeTime (day second : Nat) (n : Node) :
    (takeTime day second n).ws.report.faults =
      if n.env.clock.known = true then n.ws.report.faults else { n.ws.report.faults with clockUnknown := false } := by
  unfold takeTime
  dsimp only
  rw [Works.post, faults_of_clockPass]
  dsimp only
  split
  · rfl
  · exact faultEvent_faults _ _ _

/-- Settles O15. -/
theorem timeAndTickMoveTheClock : Obligations.TimeAndTickMoveTheClock := by
  refine ⟨?time, ?tick, ?unknown⟩
  case time =>
    intro s f rest day second head payload
    have effect_eq : effect .time s.node = takeTime day second ⟨s.node.env, s.taken rest⟩ :=
      effect_of_passes (c := .time) rfl head (by simp [actTime, payload])
    refine ⟨_, exec_of_effect effect_eq, ?_, (settle_faults _ _ _).trans (faults_of_takeTime _ _ _), ?_⟩
    · dsimp only [State.env, Node.settled]
      exact clock_of_takeTime day second ⟨s.node.env, s.taken rest⟩
    · dsimp only [State.env, Node.settled]
      exact part_of_takeTime day second ⟨s.node.env, s.taken rest⟩
  case tick =>
    intro s known timer wf
    refine ⟨_, exec_of_effect (c := .tick) rfl, ?_⟩
    refine (tickHappens_of_known (n := s.node) known timer).trans ((advance_eq wf).trans ?_)
    simp [known]
  case unknown =>
    intro s rested unknown
    refine exec_of_effect_rested (c := .tick) ?_ rested
    have unknown : s.node.env.clock.known = false := unknown
    simp [effect, tickHappens, unknown]

/-! ### What a pass leaves of calls and faces (R9) -/

/-- Every record stays in its slot and evolves, and the faces keep all but their current calls. -/
structure TablesEvolve (e d : Env) : Prop where
  calls : ∀ slot c, e.callAt slot = some c → ∃ c', d.callAt slot = some c' ∧ Evolves c c'
  faces : ∀ (i : Nat) f, e.faces[i]? = some (some f) →
    ∃ f', d.faces[i]? = some (some f') ∧ f'.cfg = f.cfg ∧ f'.presence = f.presence ∧ f'.debounce = f.debounce

theorem TablesEvolve.refl (e : Env) : TablesEvolve e e :=
  ⟨fun _ c h => ⟨c, h, .refl c⟩, fun _ f h => ⟨f, h, rfl, rfl, rfl⟩⟩

theorem TablesEvolve.trans {a b c : Env} (h : TablesEvolve a b) (k : TablesEvolve b c) : TablesEvolve a c where
  calls slot x held := by
    obtain ⟨y, here, xy⟩ := h.calls slot x held
    obtain ⟨z, there, yz⟩ := k.calls slot y here
    exact ⟨z, there, xy.trans yz⟩
  faces i f held := by
    obtain ⟨g, here, cfg, presence, debounce⟩ := h.faces i f held
    obtain ⟨k, there, cfg', presence', debounce'⟩ := k.faces i g here
    exact ⟨k, there, cfg'.trans cfg, presence'.trans presence, debounce'.trans debounce⟩

theorem TablesEvolve.setCall {e0 e : Env} (h : TablesEvolve e0 e) {slot : Nat} {c d : CallRec} (held : e.callAt slot = some c)
    (evolves : Evolves c d) : TablesEvolve e0 (e.setCall slot (some d)) := by
  refine h.trans ⟨fun i x at_ => ?_, fun i f at_ => ⟨f, at_, rfl, rfl, rfl⟩⟩
  by_cases here : i = slot
  · subst here
    obtain rfl := Option.some.inj (held.symm.trans at_)
    exact ⟨d, callAt_setCall_same (lt_of_callAt held), evolves⟩
  · exact ⟨x, (callAt_setCall_of_ne here).trans at_, .refl x⟩

theorem TablesEvolve.setCurrent {e0 e : Env} (h : TablesEvolve e0 e) {i : Nat} {f : FaceRec}
    (here : e.faces[i]? = some (some f)) (current : Option Nat) :
    TablesEvolve e0 { e with faces := e.faces.set i (some { f with current := current }) } := by
  refine h.trans ⟨fun _ c at_ => ⟨c, at_, .refl c⟩, fun j g at_ => ?_⟩
  by_cases same : i = j
  · subst same
    obtain rfl := Option.some.inj (Option.some.inj (here.symm.trans at_))
    obtain ⟨bound, -⟩ := List.getElem?_eq_some_iff.mp here
    exact ⟨{ f with current := current }, by simp [bound], rfl, rfl, rfl⟩
  · exact ⟨g, by simp [same, at_], rfl, rfl, rfl⟩

theorem live_of_mem_liveCallsOf {e : Env} {face slot : Nat} {c : CallRec} (h : (slot, c) ∈ liveCallsOf e face) :
    c.state.live = true := by
  simp only [liveCallsOf, List.mem_filter, Bool.and_eq_true] at h
  exact h.2.1

/-- The current call of a face is live. -/
theorem live_of_chooseCurrent {e : Env} {face slot : Nat} {c : CallRec} (h : chooseCurrent e face = some (slot, c)) :
    c.state.live = true := by
  unfold chooseCurrent at h
  dsimp only at h
  split at h
  · rename_i x found
    obtain rfl := Option.some.inj h
    exact live_of_mem_liveCallsOf (List.mem_of_find?_eq_some found)
  · exact live_of_mem_liveCallsOf ((sortBy_perm _ _).mem_iff.mp (List.mem_of_head? h))

theorem reselect_evolves {e0 e : Env} (h : TablesEvolve e0 e) (i : Nat) : TablesEvolve e0 (reselect i e).1 := by
  unfold reselect
  split
  · exact h
  · rename_i f face
    have chosen := h.setCurrent (Option.join_eq_some_iff.mp face) ((chooseCurrent e f.cfg.number).map (·.1))
    dsimp only
    split
    · exact chosen
    · rename_i slot c choice
      have live := live_of_chooseCurrent choice
      have skipped := skipSide_evolves f.cfg .arrival live
      split
      · exact chosen.setCall (callAt_of_chooseCurrent choice)
          (skipped.trans (enterPlatform_evolves _ (skipped.live live)))
      · exact chosen

theorem reselectFaces_evolves {e0 e : Env} (h : TablesEvolve e0 e) (numbers : List Nat) :
    TablesEvolve e0 (reselectFaces numbers e).1 := by
  unfold reselectFaces
  refine List.foldlRecOn (motive := fun r : Env × List Nat => TablesEvolve e0 r.1) _ _ h (fun r hr i _ => ?_)
  dsimp only
  split
  · split
    · exact reselect_evolves hr i
    · exact hr
  · exact hr

theorem evaluateSlot_evolves {e0 e : Env} (h : TablesEvolve e0 e) (delayed : Option Nat) (slot : Nat) :
    TablesEvolve e0 (evaluateSlot delayed slot e).1 := by
  unfold evaluateSlot
  split
  · exact h
  · rename_i c held
    refine h.setCall held (Evolves.trans ?_ (evaluateCall_evolves _ _ _))
    split
    · exact hysteresis_evolves _ _ _
    · exact .refl c

theorem finishWork_evolves {e0 : Env} {n : Node} (notices : List Note) (own : List JobRequest) (faces slots : List Nat)
    (delayed : Option Nat) (h : TablesEvolve e0 n.env) :
    TablesEvolve e0 (finishWork notices own faces slots delayed n).env :=
  List.foldlRecOn (motive := fun r : Env × List JobRequest => TablesEvolve e0 r.1) _ _ (reselectFaces_evolves h faces)
    (fun _ hr i _ => evaluateSlot_evolves hr delayed i)

/-- The record a change has put into a slot, once its pass is over. -/
theorem callAt_finishWork {n : Node} {slot : Nat} {c : CallRec} (notices : List Note) (own : List JobRequest)
    (faces slots : List Nat) (delayed : Option Nat) (place : slot < n.env.calls.length) :
    ∃ c', (finishWork notices own faces slots delayed (n.setCall slot (some c))).env.callAt slot = some c' ∧ Evolves c c' :=
  (finishWork_evolves notices own faces slots delayed (.refl _)).calls slot c (callAt_setCall_same place)

/-! ### CALL frames (R5 to R7, R21) -/

theorem effect_of_call {s : State} {f : Frame} {rest : List Frame} {b : CallBody} (head : s.passes f rest)
    (payload : f.payload = .call b) : effect .call s.node = takeCall b { s.node with ws := s.taken rest } :=
  effect_of_passes (c := .call) rfl head (g := takeCall b) (by simp [actCall, payload])

/-- A call that no slot holds. -/
theorem takeCall_of_unheld {n : Node} {b : CallBody} {slot : Nat} (times : lacksTime b = false)
    (cancelled : b.cancelled = false) (window : ¬ (n.env.clock.known = true ∧ outsideWindow n.env b.day = true))
    (new : slotOf n.env b.id = none) (served : n.env.serves b.face = true) (free : freeSlot n.env = some slot) :
    takeCall b n = takeNew slot b (previousFace b) [] [] n := by
  unfold takeCall
  rw [if_neg (by simp [times]), if_neg window, new]
  simp [takeUnheld, cancelled, served, findSlot, free]

/-- A call that a slot holds on its service day. -/
theorem takeCall_of_held {n : Node} {b : CallBody} {slot : Nat} {c : CallRec}
    (times : b.cancelled = true ∨ lacksTime b = false)
    (window : ¬ (n.env.clock.known = true ∧ outsideWindow n.env b.day = true))
    (held : slotOf n.env b.id = some (slot, c)) (day : c.day = b.day) : takeCall b n = takeHeld slot c b n := by
  have whole : ¬ (b.cancelled = false ∧ lacksTime b = true) := by
    rintro ⟨live, lacks⟩
    rcases times with cancelled | full
    · exact absurd (cancelled.symm.trans live) (by simp)
    · exact absurd (full.symm.trans lacks) (by simp)
  unfold takeCall
  rw [if_neg whole, if_neg window, held]
  simp [day]

/-- Settles O16: the record is put into the free slot as new, and the pass leaves its terms. -/
theorem newCallTakesAFreeSlot : Obligations.NewCallTakesAFreeSlot := by
  intro s f rest b slot head payload sized cancelled times window new served free
  obtain ⟨calls, -⟩ := sized
  have place : slot < s.node.env.calls.length := by
    have := List.mem_of_find?_eq_some free
    rw [calls]
    exact List.mem_range.mp this
  have effect_eq := (effect_of_call head payload).trans
    (takeCall_of_unheld (n := { s.node with ws := s.taken rest }) times cancelled window new served free)
  obtain ⟨c, held, evolves⟩ := callAt_finishWork (n := { s.node with ws := s.taken rest })
    (c := newCall b (previousFace b)) [] (newAlteration s.env slot (newCall b (previousFace b))) [b.face] [slot] none place
  have terms := evolves.terms
  exact ⟨_, c, exec_of_effect effect_eq, held, evolves.id, congrArg CallRec.rev terms, congrArg CallRec.day terms,
    congrArg CallRec.face terms, congrArg CallRec.kind terms, congrArg CallRec.sArr terms, congrArg CallRec.sDep terms,
    congrArg CallRec.delay terms, congrArg CallRec.dest terms, congrArg CallRec.origin terms,
    congrArg CallRec.operator terms, congrArg CallRec.formation terms, congrArg CallRec.points terms,
    evolves.live rfl, congrArg CallRec.retention terms⟩

theorem revOrder_self (r : Nat) : revOrder r r = .equal := by
  have : (r + 256 - r % 256) % 256 = 0 := by omega
  simp [revOrder, this]

theorem revOrder_older {n o : Nat} (byte : o < 256) (behind : 128 ≤ (n + 256 - o) % 256) : revOrder n o = .older := by
  have same : o % 256 = o := Nat.mod_eq_of_lt byte
  have far : ¬ (n + 256 - o) % 256 ≤ 127 := by omega
  have apart : (n + 256 - o) % 256 ≠ 0 := by omega
  simp [revOrder, same, far, apart]

theorem revOrder_newer {n o : Nat} (hn : n < 256) (ho : o < 256) (ne : n ≠ o) (ahead : (n + 256 - o) % 256 < 128) :
    revOrder n o = .newer := by
  have same : o % 256 = o := Nat.mod_eq_of_lt ho
  have near : (n + 256 - o) % 256 ≤ 127 := by omega
  have apart : (n + 256 - o) % 256 ≠ 0 := by omega
  simp [revOrder, same, near, apart]

/-- No step of a retired call is PENDING (R12). -/
theorem steps_retire (now : Instant) (state : CallState) (c : CallRec) : ∀ x ∈ (c.retire now state).steps, x ≠ .pending := by
  intro x at_ pending
  obtain ⟨y, -, made⟩ := List.mem_map.mp at_
  rw [pending] at made
  by_cases was : y = .pending <;> simp [was] at made

/-- A cancelled call: its record is retired under the new revision. -/
theorem callAt_cancelCall {n : Node} {slot : Nat} {c : CallRec} {b : CallBody} (place : slot < n.env.calls.length) :
    (cancelCall slot c b n).env.callAt slot =
      some { (c.retire n.env.now .cancelled) with rev := b.rev, statusCancelled := true } := by
  obtain ⟨c', at_, evolves⟩ := callAt_finishWork (n := n)
    (c := { (c.retire n.env.now .cancelled) with rev := b.rev, statusCancelled := true }) _ _ [c.face] [] none place
  obtain rfl := evolves.retired rfl
  exact at_

/-- Settles O17, by the order of the two revisions. -/
theorem callRevisionsAreSerial : Obligations.CallRevisionsAreSerial := by
  intro s f rest b slot c head payload sized times window found day brev crev
  have effect_eq := (effect_of_call head payload).trans
    (takeCall_of_held (n := { s.node with ws := s.taken rest }) times window found day)
  refine ⟨fun rested same => ?_, fun rested behind => ?_, fun ne ahead live cancelled => ?_⟩
  · rw [takeHeld, same, revOrder_self c.rev] at effect_eq
    exact exec_of_effect_rested effect_eq rested
  · rw [takeHeld, revOrder_older crev behind] at effect_eq
    exact exec_of_effect_rested effect_eq rested
  · rw [takeHeld, revOrder_newer brev crev ne ahead] at effect_eq
    simp only [live, cancelled, if_true] at effect_eq
    exact ⟨_, _, exec_of_effect effect_eq, callAt_cancelCall (lt_of_callAt (held_of_slotOf found).1), rfl, rfl, rfl, rfl,
      rfl, rfl, steps_retire s.env.now .cancelled c⟩

/-! ### The timers of a slot (R12, R13) -/

/-- Settles O18. -/
theorem slotTimersRetireAndFree : Obligations.SlotTimersRetireAndFree := by
  refine ⟨fun s slot c rested held timer => ?_, fun s slot c _ held timer state => ?_⟩
  · refine exec_of_effect_rested (c := .retentionTimerExpiry slot) ?_ rested
    have held : s.node.env.callAt slot = some c := held
    simp only [effect, retentionExpires, held, timer, if_true]
    rfl
  · have effect_eq : effect (.dwellTimerExpiry slot) s.node =
        finishWork [.notice (.retired .finished) slot c.id c.rev] [] [c.face] [] none
          (s.node.setCall slot (some (c.retire s.node.env.now .finished))) := by
      have held : s.node.env.callAt slot = some c := held
      simp only [effect, dwellExpires, held, timer, state, and_self, if_true]
    obtain ⟨c', at_, evolves⟩ := callAt_finishWork (n := s.node) (c := c.retire s.node.env.now .finished)
      [.notice (.retired .finished) slot c.id c.rev] [] [c.face] [] none (lt_of_callAt held)
    obtain rfl := evolves.retired rfl
    exact ⟨_, _, exec_of_effect effect_eq, at_, rfl, rfl, rfl, rfl, steps_retire s.env.now .finished c⟩

end Sys2Proof.Proofs.ClockAndCalls
end


section
/-! The grace and catch-up rule on one ladder (R36). -/

namespace Sys2Proof.Proofs.LadderRule

open Sys2Proof Sys2Proof.Machine

theorem step_setStep_same {i : Nat} {c : CallRec} (place : i < c.steps.length) (s : StepState) :
    (c.setStep i s).step i = s := by
  simp [CallRec.step, CallRec.setStep, place]

theorem step_setStep_of_ne {i j : Nat} (ne : j ≠ i) (s : StepState) (c : CallRec) : (c.setStep j s).step i = c.step i := by
  simp [CallRec.step, CallRec.setStep, ne]

theorem stepPlace_inj {side : LadderSide} {i j : Nat} : stepPlace side i = stepPlace side j ↔ i = j := by
  cases side <;> simp [stepPlace]

theorem stepPlace_lt (side : LadderSide) {i : Nat} (h : i < 6) : stepPlace side i < 12 := by
  cases side <;> simp only [stepPlace] <;> omega

/-- Every due step becomes SKIPPED: what `evaluateLadder` does before the latest one fires. -/
def skipAll (side : LadderSide) (due : List (Nat × Nat × LadderStep)) (c : CallRec) : CallRec :=
  due.foldl (fun c x => c.setStep (stepPlace side x.1) .skipped) c

theorem steps_length_skipAll (side : LadderSide) (due : List (Nat × Nat × LadderStep)) (c : CallRec) :
    (skipAll side due c).steps.length = c.steps.length := by
  induction due generalizing c with
  | nil => rfl
  | cons x due ih => exact (ih _).trans List.length_set

theorem step_skipAll_of_not_mem {side : LadderSide} {due : List (Nat × Nat × LadderStep)} {i : Nat}
    (apart : ∀ x ∈ due, stepPlace side x.1 ≠ i) (c : CallRec) : (skipAll side due c).step i = c.step i := by
  induction due generalizing c with
  | nil => rfl
  | cons x due ih =>
    obtain ⟨head, rest⟩ := List.forall_mem_cons.mp apart
    exact (ih rest _).trans (step_setStep_of_ne head _ _)

/-- A SKIPPED step stays so, and a step that is due becomes so. -/
theorem step_skipAll {side : LadderSide} {due : List (Nat × Nat × LadderStep)} {i : Nat} {c : CallRec}
    (place : i < c.steps.length) (skips : c.step i = .skipped ∨ ∃ x ∈ due, stepPlace side x.1 = i) :
    (skipAll side due c).step i = .skipped := by
  induction due generalizing c with
  | nil => exact skips.resolve_right (by simp)
  | cons x due ih =>
    refine ih (place.trans_eq List.length_set.symm) ?_
    by_cases here : stepPlace side x.1 = i
    · subst here
      exact .inl (step_setStep_same place _)
    · refine skips.imp ((step_setStep_of_ne here _ _).trans ·) fun ⟨y, at_, same⟩ => ?_
      rcases List.mem_cons.mp at_ with rfl | later
      · exact absurd same here
      · exact ⟨y, later, same⟩

theorem bestBy_eq_none {α : Type} {better : α → α → Bool} {l : List α} (none : bestBy better l = none) : l = [] := by
  cases l with
  | nil => rfl
  | cons a l =>
    unfold bestBy at none
    split at none
    · cases none
    · split at none <;> cases none

/-- The chosen step has the smallest lead. -/
theorem lead_latestStep {l : List (Nat × Nat × LadderStep)} {last : Nat × Nat × LadderStep} (latest : latestStep l = some last) :
    ∀ x ∈ l, last.2.1 ≤ x.2.1 := by
  unfold latestStep at latest
  induction l generalizing last with
  | nil => cases latest
  | cons a l ih =>
    unfold bestBy at latest
    split at latest
    · rename_i none
      obtain rfl := bestBy_eq_none none
      obtain rfl := Option.some.inj latest
      simp
    · rename_i b found
      have least := ih found
      split at latest
      · rename_i better
        obtain rfl := Option.some.inj latest
        have better := of_decide_eq_true better
        exact List.forall_mem_cons.mpr ⟨by omega, least⟩
      · rename_i worse
        obtain rfl := Option.some.inj latest
        have worse := of_decide_eq_false (Bool.eq_false_iff.mpr worse)
        exact List.forall_mem_cons.mpr ⟨Nat.le_refl _, fun x at_ => by have := least x at_; omega⟩

/-- A due step stands in its ladder. -/
theorem place_of_mem_dueSteps {e : Env} {c : CallRec} {side : LadderSide} {expected : Nat} {l : Ladder}
    {x : Nat × Nat × LadderStep} (h : x ∈ dueSteps e c side expected l) : x.1 < l.steps.length := by
  have timed : x ∈ timedSteps l := by
    unfold dueSteps at h
    split at h
    · exact (List.mem_filter.mp h).1
    · cases h
  obtain ⟨y, at_, lead⟩ := List.mem_filterMap.mp timed
  obtain ⟨lead, -, rfl⟩ := Option.map_eq_some_iff.mp lead
  obtain ⟨i, place, step⟩ := List.mem_filterMap.mp at_
  obtain ⟨s, -, rfl⟩ := Option.map_eq_some_iff.mp step
  exact List.mem_range.mp place

theorem evaluateLadder_of_latest {e : Env} {slot : Nat} {f : FaceCfg} {side : LadderSide} {expected : Nat} {c : CallRec}
    {last : Nat × Nat × LadderStep} (latest : latestStep (dueSteps e c side expected (ladderOf f side)) = some last) :
    let r := evaluateLadder e slot f side expected c
    let skipped := skipAll side (dueSteps e c side expected (ladderOf f side)) c
    let fires := -(e.part.cfg.settings.grace : Int) ≤ stepRelative e c expected last.2.1
    r.call = (if fires then skipped.setStep (stepPlace side last.1) .fired else skipped)
    ∧ r.requests = if fires then requestOfStep (.ladder slot (stepPlace side last.1 + 1)) (some (callRefOf slot c)) last.2.2 f
        else [] := by
  simp only [evaluateLadder, latest, decide_eq_true_eq]
  exact ⟨rfl, trivial⟩

/-- Settles O20: all due steps are skipped, and the latest fires when it is within the grace. -/
theorem ladderFiresOnlyTheLatestDueStep : Obligations.LadderFiresOnlyTheLatestDueStep := by
  intro e slot f side expected c last twelve six latest due r inGrace
  obtain ⟨call, requests⟩ := evaluateLadder_of_latest (slot := slot) latest
  have lastDue : last ∈ due := bestBy_mem _ _ _ latest
  have place (x) (h : x ∈ due) : stepPlace side x.1 < c.steps.length := by
    rw [twelve]
    exact stepPlace_lt side ((place_of_mem_dueSteps h).trans_le six)
  have skipped (x) (h : x ∈ due) : (skipAll side due c).step (stepPlace side x.1) = .skipped :=
    step_skipAll (place x h) (.inr ⟨x, h, rfl⟩)
  have others (i) (ne : stepPlace side last.1 ≠ i) : r.call.step i = (skipAll side due c).step i := by
    rw [call]
    split
    · exact step_setStep_of_ne ne _ _
    · rfl
  refine ⟨lead_latestStep latest, fun within => ?_, fun late => ?_, fun x h ne => ?_, fun i apart => ?_⟩
  · rw [call, requests, if_pos within, if_pos within]
    refine ⟨step_setStep_same ?_ _, rfl⟩
    exact (place last lastDue).trans_eq (steps_length_skipAll _ _ _).symm
  · rw [call, requests, if_neg late, if_neg late]
    exact ⟨skipped last lastDue, rfl⟩
  · exact (others _ fun same => ne (stepPlace_inj.mp same).symm).trans (skipped x h)
  · exact (others i (apart last lastDue)).trans (step_skipAll_of_not_mem apart c)

end Sys2Proof.Proofs.LadderRule
end


section
/-! Requests that become records of the Job Table (sections 3.1 to 3.3): ANNOUNCE, REPLAY-LAST and the trigger inputs. -/

namespace Sys2Proof.Proofs.JobRequests

open Sys2Proof Sys2Proof.Machine Sys2Proof.Proofs.Effects Sys2Proof.Proofs.Commands Sys2Proof.Proofs.Reports

/-! ### Acceptance (R53) -/

theorem supersede_of_other {q : JobRequest} (e : Env) (w : Works) (other : ∀ o, q.origin.supersedes o = false) :
    w.supersede e q = w := by
  simp [Works.supersede, other]

/-- A request that nothing holds back becomes a record. -/
theorem accept_of_free {e : Env} {q : JobRequest} {w : Works} (other : ∀ o, q.origin.supersedes o = false)
    (allowed : ¬ (e.part.state = .quiet ∧ 2 ≤ q.cls.rank)) (space : w.jobs.recs.length < jobCapacity) :
    w.accept e q = w.issueTag.createJob q w.jobs.nextTag := by
  have allowed : ¬ (e.part.state = .quiet ∧ q.cls.isLow = true) := by simpa [Cls.isLow] using allowed
  have space : w.issueTag.jobs.recs.length < jobCapacity := space
  simp [Works.accept, allowed, supersede_of_other e _ other, Works.makeSpace, space]

theorem dispatchOne_of_cannot {e : Env} {w : Works} (cannot : ¬ canDispatch e w) : w.dispatchOne e = w := by
  unfold Works.dispatchOne
  split
  · rename_i state
    have busy : [0, 1].find? w.channelFree = none := by
      simp only [canDispatch, state, true_and, not_or, Bool.not_eq_true] at cannot
      simp [cannot.1, cannot.2]
    rw [busy]
  · rfl

theorem dispatch_of_cannot {e : Env} {w : Works} (cannot : ¬ canDispatch e w) : w.dispatch e = w := by
  rw [Works.dispatch, dispatchOne_of_cannot cannot, dispatchOne_of_cannot cannot]

/-- A new record holds no channel. -/
theorem channelFree_createJob (q : JobRequest) (tag n : Nat) (w : Works) :
    (w.createJob q tag).channelFree n = w.channelFree n := by
  have same : (w.createJob q tag).jobOn n = w.jobOn n := by
    simp [Works.jobOn, Works.createJob, recordOf]
  simp only [Works.channelFree, same]
  rfl

/-- A request taken when nothing holds it back and no dispatch can follow. -/
theorem takeRequest_of_queued {e : Env} {q : JobRequest} {w : Works} (other : ∀ o, q.origin.supersedes o = false)
    (allowed : ¬ (e.part.state = .quiet ∧ 2 ≤ q.cls.rank)) (space : w.jobs.recs.length < jobCapacity)
    (cannot : ¬ canDispatch e w) : w.takeRequest e q = w.issueTag.createJob q w.jobs.nextTag := by
  rw [Works.takeRequest, accept_of_free other allowed space]
  refine dispatch_of_cannot fun can => cannot ?_
  simp only [canDispatch, channelFree_createJob] at can
  exact can

/-! ### ANNOUNCE (R50) -/

theorem actAnnounce_of_payload {f : Frame} {a : AnnounceBody} (payload : f.payload = .announce a) :
    actAnnounce f = some (onWorks (fun e w => w.announce e f a)) := by
  simp [actAnnounce, payload]

/-- The checks of R50, passed without a call to match. -/
theorem checkAnnounce_of_no_match {e : Env} {f : Frame} {a : AnnounceBody} (noMatch : a.callMatch = none)
    (templates : ∀ n, a.content = .template n → provided e n = true) (zones : a.required ≠ [] ∨ a.optional ≠ [])
    (console : f.cls = .emergency → isConsole e f.source = true) : checkAnnounce e f a = .ok none := by
  have zones : ¬ (a.required = [] ∧ a.optional = []) := fun ⟨h, k⟩ => zones.elim (· h) (· k)
  have console : ¬ (f.cls = .emergency ∧ isConsole e f.source = false) := by
    rintro ⟨cls, not⟩
    simp [console cls] at not
  unfold checkAnnounce
  cases content : a.content with
  | template n => simp [templates n content, zones, console, noMatch]
  | phrases l => simp [zones, console, noMatch]

theorem checkAnnounce_of_not_provided {e : Env} {f : Frame} {a : AnnounceBody} {n : Nat} (content : a.content = .template n)
    (missing : provided e n = false) : checkAnnounce e f a = .error .badRequest := by
  simp [checkAnnounce, content, missing]

/-- Settles O22. -/
theorem announceMakesAJob : Obligations.AnnounceMakesAJob := by
  intro s f rest a rested head payload tag
  have effect_eq : effect .announce s.node = { s.node with ws := (s.taken rest).announce s.env f a } :=
    effect_of_passes (c := .announce) rfl head (actAnnounce_of_payload payload)
  refine ⟨?accepted, ?refused⟩
  · intro noMatch templates zones console allowed space cannot q
    have announced : (s.taken rest).announce s.env f a = (s.taken rest).issueTag.createJob q tag := by
      simp only [Works.announce, checkAnnounce_of_no_match noMatch templates zones console]
      exact takeRequest_of_queued (fun _ => rfl) allowed space cannot
    rw [announced] at effect_eq
    exact exec_of_works effect_eq (settle_of_empty _ _ _ rested)
  · intro n content missing line room report
    have announced : (s.taken rest).announce s.env f a = { s.taken rest with
        jobs := { s.ws.jobs with lastTag := tag },
        line := { s.ws.line.takeFrame rest with
          tx := if s.env.part.cfg.mask.neverStarted = true then queuedAmong report s.ws.line.tx else s.ws.line.tx } } := by
      simp only [Works.announce, checkAnnounce_of_not_provided content missing, Works.refuse, Works.takeReport, Code.group,
        maskSends, content]
      split
      · exact hand_of_room _ _ line room
      · rfl
    rw [announced] at effect_eq
    exact exec_of_works effect_eq (settle_of_empty _ _ _ rested)

/-! ### REPLAY-LAST and triggers (R51, R52) -/

theorem actReplayLast_of_payload {f : Frame} {face : Nat} (payload : f.payload = .control (.replayLast face)) :
    actReplayLast f = some (onWorks (fun e w => w.replayLast e face)) := by
  simp [actReplayLast, payload]

/-- An edge of a trigger input outside START. -/
theorem triggerEdge_of_change {input : Nat} {level : Bool} {n : Node} (change : levelAt n.env.pins.trig input ≠ level)
    (state : n.env.part.state ≠ .start) :
    triggerEdge input level n =
      let env := { n.env with pins := { n.env.pins with trig := n.env.pins.trig.set input level } }
      { env := env, ws := if level then n.ws.triggerRises env input else n.ws.triggerFalls env input } := by
  simp [triggerEdge, change, state]

/-- A TRIGGER request stands for its input. -/
theorem origin_of_triggerRequest {e : Env} {input : Nat} {q : JobRequest} (request : triggerRequest e input = some q) :
    q.origin = .trigger input := by
  unfold triggerRequest at request
  split at request
  · cases request
  · dsimp only at request
    split at request
    · cases request
    · split at request
      · cases request
      · obtain rfl := Option.some.inj request
        rfl

/-- Settles O23. -/
theorem replayAndTriggersMakeJobs : Obligations.ReplayAndTriggersMakeJobs := by
  refine ⟨?replay, ?rising, ?falling⟩
  · intro s f rest face l rested head payload source allowed space cannot tag q
    have effect_eq : effect .replayLast s.node = { s.node with ws := (s.taken rest).replayLast s.env face } :=
      effect_of_passes (c := .replayLast) rfl head (actReplayLast_of_payload payload)
    have replayed : (s.taken rest).replayLast s.env face = (s.taken rest).issueTag.createJob q tag := by
      have source : (s.taken rest).replaySource s.env face = some l := source
      simp only [Works.replayLast, source]
      exact takeRequest_of_queued (fun _ => rfl) allowed space cannot
    rw [replayed] at effect_eq
    exact exec_of_works effect_eq (settle_of_empty _ _ _ rested)
  · intro s input q rested low state none request allowed space cannot tag
    have origin := origin_of_triggerRequest request
    have effect_eq : effect (.triggerRisingEdge input) s.node = _ :=
      triggerEdge_of_change (level := true) (by simp [low]) state
    have rises (pins : Pins) :
        s.node.ws.triggerRises { s.node.env with pins := pins } input = s.ws.issueTag.createJob q tag := by
      have none : s.node.ws.triggerJob input = Option.none := none
      have request : triggerRequest { s.node.env with pins := pins } input = some q := request
      simp only [Works.triggerRises, none, request]
      exact takeRequest_of_queued (fun _ => by rw [origin]; rfl) allowed space cannot
    simp only [if_true, rises] at effect_eq
    refine (exec_of_effect_rested effect_eq rested).trans ?_
    simp [State.withWs, State.withEnv, Works.createJob, Works.issueTag, origin, tag]
  · intro s input tag r rested high state linked found gap
    have effect_eq : effect (.triggerFallingEdge input) s.node = _ :=
      triggerEdge_of_change (level := false) (by simp [high]) state
    have falls (e : Env) : s.ws.triggerFalls e input = s.ws.modJob tag (fun r => { r with fellMark := true }) := by
      simp [Works.triggerFalls, linked, found, gap]
    simp only [Bool.false_eq_true, if_false, falls] at effect_eq
    exact exec_of_effect_rested effect_eq rested

end Sys2Proof.Proofs.JobRequests
end


section
/-! The gap timer and the retry timer of a job (R65, R66): binding begins on a channel and asks for its template. -/

namespace Sys2Proof.Proofs.GapAndRetry

open Sys2Proof Sys2Proof.Machine Sys2Proof.Proofs.Effects Sys2Proof.Proofs.Commands Sys2Proof.Proofs.JobRequests
open Sys2Proof.Proofs.SampleDecoding

/-! ### A read asked for (R79, R84) -/

theorem issueAudio_eq (n : Nat) (w : Works) :
    ∃ fl, w.issueAudio n = { w with flash := fl } ∧ fl.waiting = w.flash.waiting := by
  unfold Works.issueAudio
  split
  · exact ⟨w.flash, rfl, rfl⟩
  · exact ⟨_, rfl, rfl⟩

/-- The arbiter's look changes the flash alone; a read that waits goes on waiting or gets the port. -/
theorem lookAtFlash_eq (e : Env) (w : Works) :
    ∃ fl, w.lookAtFlash e = { w with flash := fl }
      ∧ ∀ r ∈ w.flash.waiting, r ∈ fl.waiting ∨ fl.port = some (.bind r.channel r.read true) := by
  unfold Works.lookAtFlash
  split
  · exact ⟨w.flash, rfl, fun r here => .inl here⟩
  · split
    · rename_i n _
      obtain ⟨fl, eq, waiting⟩ := issueAudio_eq n w
      exact ⟨fl, eq, fun r here => .inl (waiting ▸ here)⟩
    · split
      · rename_i empty
        exact ⟨w.flash, rfl, fun r here => .inl here⟩
      · rename_i first rest waiting
        refine ⟨_, rfl, fun r here => ?_⟩
        rw [waiting] at here
        rcases List.mem_cons.mp here with rfl | later
        · exact .inr rfl
        · exact .inl later

/-- A read among those that wait: what `askRead` changes. -/
def asking (n : Nat) (read : BindRead) (w : Works) : Works :=
  { w with flash := { w.flash with waiting := w.flash.waiting ++ [WaitingRead.mk n read] } }

theorem askRead_eq (n : Nat) (read : BindRead) (w : Works) : w.askRead n read = (asking n read w).post .flashLook := rfl

/-- A read asked for by a block at rest waits, or is on the port. -/
theorem settle_askRead {w : Works} (e : Env) (n : Nat) (read : BindRead) (rested : w.agenda = []) :
    ∃ fl, settle e settleFuel (w.askRead n read) = { w with flash := fl }
      ∧ (WaitingRead.mk n read ∈ fl.waiting ∨ fl.port = some (.bind n read true)) := by
  obtain ⟨fl, eq, served⟩ := lookAtFlash_eq e (asking n read w)
  have done : (handle e .flashLook (asking n read w)).agenda = [] := (lookAtFlash_agenda e _).trans rested
  refine ⟨fl, ?_, served _ (List.mem_append_right _ (List.mem_singleton_self _))⟩
  rw [askRead_eq, settle_post (w := asking n read w) e .flashLook rested done]
  exact eq

/-! ### Binding begins (R58) -/

@[simp] theorem reserve_jobs (n : Nat) (w : Works) : (w.reserve n).jobs = w.jobs := by
  unfold Works.reserve
  split <;> rfl

@[simp] theorem reserve_agenda (n : Nat) (w : Works) : (w.reserve n).agenda = w.agenda := by
  unfold Works.reserve
  split <;> rfl

/-- A channel that is FREE is bound to the job. -/
theorem reserve_of_free {w : Works} {n : Nat} (place : n < w.channels.length) (free : (w.channel n).state = .free) :
    ((w.reserve n).channel n).state = .reserved := by
  rw [Works.reserve, free]
  exact congrArg Channel.state (channel_modChannel_same _ place)

/-- The record of a job without a call as its binding begins. -/
def beginBinding (r : JobRec) : JobRec :=
  { r with state := .binding, binding := some { awaitingTemplate := true, bound := [], todo := [], failed := false },
           snapshot := none }

/-- The only job, which names no call, enters BINDING on its channel: its template is asked for. -/
theorem enterBinding_of_template {w : Works} {r : JobRec} {n template : Nat} (e : Env) (one : w.jobs.recs = [r])
    (call : r.callRef = none) (content : r.content = .template template) (channel : r.channel = some n) :
    ∃ v : Works, w.enterBinding e r.tag = v.askRead n (.template template) ∧ v.jobs.recs = [beginBinding r]
      ∧ v.channels = (w.reserve n).channels ∧ v.agenda = w.agenda := by
  have live : staleAtBinding e r = false := by simp [staleAtBinding, call]
  simp only [Works.enterBinding, job_of_one one, channel, content, live, call]
  refine ⟨_, rfl, ?_, ?_, ?_⟩
  · simp [Works.modJob, one, JobRec.takeSnapshot, beginBinding]
  · simp only [Works.modJob_channels, Works.reserve, Works.channel]
    split <;> rfl
  · simp

/-- The only record, when it is eligible, no REPLAY, and a channel is free. -/
theorem dispatchOne_of_one {e : Env} {w : Works} {r : JobRec} {n : Nat} (state : e.part.state = .active ∨ e.part.state = .quiet)
    (free : [0, 1].find? w.channelFree = some n) (one : w.jobs.recs = [r]) (ready : eligible e r = true)
    (notReplay : r.isReplay = false) :
    w.dispatchOne e = (w.modJob r.tag fun r => { r with channel := some n }).enterBinding e r.tag := by
  simp [Works.dispatchOne, state, free, one, ready, bestBy, notReplay]

/-! ### The two timers -/

/-- A record whose retry timer has run out. -/
def requeue (r : JobRec) : JobRec := { r with retryTimer := none, state := .queued }

/-- Settles O24. -/
theorem gapAndRetryTimersGoOn : Obligations.GapAndRetryTimersGoOn := by
  refine ⟨?gap, ?retry⟩
  case gap =>
    intro s r n template rested sized two one state timer notReplay call content channel
    have one' : (s.ws.modJob r.tag fun r => { r with gapTimer := none }).jobs.recs = [{ r with gapTimer := none }] :=
      recs_modJob_of_one _ one
    obtain ⟨v, eq, recs, -, agenda⟩ := enterBinding_of_template s.env one' call content channel
    have effect_eq : effect (.gapTimerExpiry r.tag) s.node = { s.node with ws := v.askRead n (.template template) } := by
      have expires : s.node.ws.gapExpires s.env r.tag = v.askRead n (.template template) := by
        simp only [Works.gapExpires, job_of_one one, state, timer, notReplay, and_self, if_true]
        exact eq
      exact congrArg (Node.mk s.node.env) expires
    obtain ⟨fl, settled, served⟩ := settle_askRead s.env n (.template template) (agenda.trans rested)
    exact ⟨_, _, exec_of_works effect_eq settled, recs, rfl, rfl, rfl, channel, served⟩
  case retry =>
    intro s r template rested sized one state timer channel call notReplay notBefore content
    have one' : (s.ws.modJob r.tag requeue).jobs.recs = [requeue r] := recs_modJob_of_one _ one
    have effect_eq : effect (.retryTimerExpiry r.tag) s.node =
        { s.node with ws := (s.ws.modJob r.tag requeue).dispatch s.env } := by
      have expires : s.node.ws.retryExpires s.env r.tag = (s.ws.modJob r.tag requeue).dispatch s.env := by
        simp only [Works.retryExpires, job_of_one one, state, timer, and_self, if_true]
        rfl
      exact congrArg (Node.mk s.node.env) expires
    have free (n : Nat) : (s.ws.modJob r.tag requeue).channelFree n
        = s.ws.channelFree n := by
      simp [Works.channelFree, Works.channel, Works.jobOn, one', one, requeue, channel]
    refine ⟨fun cannot => ?_, fun active free0 => ?_⟩
    · rw [dispatch_of_cannot fun can => cannot (by simpa only [canDispatch, free] using can)] at effect_eq
      refine (exec_of_effect_rested effect_eq rested).trans ?_
      simp [State.withWs, Works.modJob, one, requeue]
    · have one'' : ((s.ws.modJob r.tag requeue).modJob r.tag
          fun r => { r with channel := some 0 }).jobs.recs = [{ requeue r with channel := some 0 }] :=
        recs_modJob_of_one _ one'
      obtain ⟨v, eq, recs, channels, agenda⟩ := enterBinding_of_template s.env one'' call content rfl
      have first : (s.ws.modJob r.tag requeue).dispatchOne s.env
          = v.askRead 0 (.template template) := by
        refine (dispatchOne_of_one (.inl active) ?_ one' ?_ notReplay).trans eq
        · exact List.find?_cons_of_pos ((free 0).trans (by simp [Works.channelFree, free0, Works.jobOn, one, channel]))
        · simp [eligible, notBeforePassed, notBefore, requeue]
      have second : (v.askRead 0 (.template template)).dispatchOne s.env = v.askRead 0 (.template template) :=
        dispatchOne_of_none (by simp [Works.askRead, recs, eligible, beginBinding])
      rw [Works.dispatch, first, second] at effect_eq
      obtain ⟨fl, settled, -⟩ := settle_askRead s.env 0 (.template template) (agenda.trans rested)
      obtain ⟨-, -, -, -, two, -⟩ := sized
      refine ⟨_, _, exec_of_works effect_eq settled, recs, rfl, rfl, rfl, rfl, ?_⟩
      refine (congrArg Channel.state (channel_congr channels 0)).trans (reserve_of_free ?_ free0)
      show 0 < s.node.ws.channels.length
      omega

end Sys2Proof.Proofs.GapAndRetry
end


section
/-! What a job gives back (R119, R120, R138, R150): which of the works leaves, frames and the settling after them reach.
A block that gives back zones and a trunk touches zones, levels, line and reports, and hands on work that only a table
with an eligible record, or with a job that asks, would take up. -/

namespace Sys2Proof.Proofs.GivingBack

open Sys2Proof Sys2Proof.Machine Sys2Proof.Proofs.Effects Sys2Proof.Proofs.Commands Sys2Proof.Proofs.ZoneGrants
open Sys2Proof.Proofs.GapAndRetry

/-- Work that means nothing to a job that neither waits for a dispatch nor asks for zones or a trunk. -/
def idleNote : Note → Prop
  | .dispatch | .verdict _ _ _ | .seizeLost _ _ | .askUnsent _ _ | .flashLook => True
  | _ => False

/-- No record is eligible, and none asks for a zone or a trunk. -/
def idleTable (e : Env) (w : Works) : Prop :=
  ∀ r ∈ w.jobs.recs, eligible e r = false ∧ r.gathering.phase.asks = false ∧ r.gathering.seizing = none

/-- Jobs, channels, trunk view and the counters but FRAMES-DROPPED are as they were. -/
structure Spares (w v : Works) : Prop where
  jobs : v.jobs = w.jobs
  channels : v.channels = w.channels
  trunks : v.trunks = w.trunks
  counters : ∀ c, c ≠ .framesDropped → v.counter c = w.counter c
  size : v.report.counters.length = w.report.counters.length

theorem Spares.refl (w : Works) : Spares w w := ⟨rfl, rfl, rfl, fun _ _ => rfl, rfl⟩

theorem Spares.trans {u v w : Works} (h : Spares u v) (k : Spares v w) : Spares u w where
  jobs := k.jobs.trans h.jobs
  channels := k.channels.trans h.channels
  trunks := k.trunks.trans h.trunks
  counters c other := (k.counters c other).trans (h.counters c other)
  size := k.size.trans h.size

/-- The flash stands too, and the work handed on is idle. -/
structure Aside (w v : Works) : Prop extends Spares w v where
  flash : v.flash = w.flash
  agenda : ∃ ns, v.agenda = w.agenda ++ ns ∧ ∀ n ∈ ns, idleNote n

theorem Aside.refl (w : Works) : Aside w w := ⟨.refl w, rfl, [], by simp⟩

theorem Aside.trans {u v w : Works} (h : Aside u v) (k : Aside v w) : Aside u w := by
  obtain ⟨ns, first, idle⟩ := h.agenda
  obtain ⟨ms, second, idle'⟩ := k.agenda
  refine ⟨h.toSpares.trans k.toSpares, k.flash.trans h.flash, ns ++ ms, by rw [second, first, List.append_assoc], ?_⟩
  exact fun n at_ => (List.mem_append.mp at_).elim (idle n) (idle' n)

theorem Aside.post {w : Works} {n : Note} (idle : idleNote n) : Aside w (w.post n) :=
  ⟨⟨rfl, rfl, rfl, fun _ _ => rfl, rfl⟩, rfl, [n], rfl, by simpa using idle⟩

theorem Aside.foldl {α : Type} {f : Works → α → Works} (each : ∀ w a, Aside w (f w a)) (l : List α) (w : Works) :
    Aside w (l.foldl f w) := by
  induction l generalizing w with
  | nil => exact .refl w
  | cons a l ih => exact (each w a).trans (ih (f w a))

/-! ### Frames handed over (R167) -/

theorem Spares.bump_framesDropped (w : Works) : Spares w (w.bump .framesDropped) where
  jobs := rfl
  channels := rfl
  trunks := rfl
  counters c other := by
    have apart : Counter.framesDropped.index ≠ c.index := by cases c <;> simp_all [Counter.index]
    rw [Works.counter_bump, if_neg (fun h => apart h.1)]
  size := List.length_modify _ _ _

theorem unsent_aside (f : Frame) (p : TxPurpose) (w : Works) : Aside w (w.unsent f p) := by
  have counted : Aside w (w.bump .framesDropped) := ⟨.bump_framesDropped w, rfl, [], by simp⟩
  unfold Works.unsent
  split
  · exact counted.trans (.post trivial)
  · exact counted.trans (.post trivial)
  · exact counted

/-- A change of the line alone. -/
theorem Aside.of_line (w : Works) (l : Line) : Aside w { w with line := l } :=
  ⟨⟨rfl, rfl, rfl, fun _ _ => rfl, rfl⟩, rfl, [], by simp⟩

theorem hand_aside (e : Env) (f : Frame) (p : TxPurpose) (w : Works) : Aside w (w.hand e f p) := by
  unfold Works.hand
  split
  · exact .refl w
  · split
    · exact unsent_aside f p w
    · split
      · exact .of_line w _
      · split
        · exact unsent_aside f p w
        · split
          · exact (Aside.of_line w _).trans (unsent_aside _ _ _)
          · exact unsent_aside f p w

/-! ### Zones left (R119, R120) -/

theorem setZone_aside (e : Env) (z : ZoneRec) (w : Works) : Aside w (w.setZone e z) := by
  obtain ⟨ls, eq⟩ := setZone_eq e z w
  rw [eq]
  exact ⟨⟨rfl, rfl, rfl, fun _ _ => rfl, rfl⟩, rfl, [], by simp⟩

theorem askLevel_aside (zone : Nat) (c : Cls) (w : Works) : Aside w (w.askLevel zone c) :=
  ⟨⟨rfl, rfl, rfl, fun _ _ => rfl, rfl⟩, rfl, [], by simp⟩

theorem tell_aside (e : Env) (x : Waiter) (zone : Nat) (v : Verdict) (w : Works) : Aside w (w.tell e x zone v) := by
  unfold Works.tell
  split
  · exact .post trivial
  · exact hand_aside e _ _ w

theorem moveOn_aside (e : Env) (z : ZoneRec) (old : Cls) (w : Works) : Aside w (w.moveOn e z old) := by
  have denied (v : Works) : Aside v ((nextHead e w z z.waiting).1.foldl (fun w d => w.tell e d.1 z.zone (.denied d.2)) v) :=
    .foldl (fun v _ => tell_aside e _ _ _ v) _ v
  unfold Works.moveOn
  dsimp only
  split
  · rename_i x rest _
    refine Aside.trans ?_ (tell_aside e _ _ _ _)
    refine Aside.trans ?_ (denied _)
    split
    · exact (setZone_aside e _ w).trans (askLevel_aside _ _ _)
    · exact setZone_aside e _ w
  · exact (setZone_aside e _ w).trans (denied _)

theorem leaveOne_aside (e : Env) (node tag zone : Nat) (w : Works) : Aside w (w.leaveOne e node tag zone) := by
  unfold Works.leaveOne
  split
  · exact .refl w
  · split
    · split
      · exact moveOn_aside e _ _ w
      · exact setZone_aside e _ w
    · exact .refl w

theorem leaveZones_aside (e : Env) (node tag : Nat) (zones : List Nat) (w : Works) : Aside w (w.leaveZones e node tag zones) :=
  .foldl (fun w _ => leaveOne_aside e node tag _ w) zones w

/-! ### What a job gives back (R138, R150) -/

theorem giveBack_aside (e : Env) (r : JobRec) (gs : List Grant) (w : Works) : Aside w (w.giveBack e r gs) := by
  unfold Works.giveBack
  dsimp only
  split
  · exact leaveZones_aside e _ _ _ w
  · exact (leaveZones_aside e _ _ _ w).trans (hand_aside e _ _ _)

theorem abandonSeize_aside (r : JobRec) (w : Works) : Aside w (w.abandonSeize r) := by
  unfold Works.abandonSeize
  split
  · exact .of_line w _
  · exact .refl w

/-- A channel lets its trunk go with the job's trunk field. -/
def quietChannel (r : JobRec) (w : Works) : Works :=
  match r.trunk, r.channel with
  | some _, some n => w.modChannel n (fun c => { c with transmit := none })
  | _, _ => w

/-- The record of a job that has given all back. -/
def givenBack (r : JobRec) : JobRec := { r with trunk := none, gathering := Gathering.none }

theorem Aside.modJob {w v : Works} (h : Aside w v) (tag : Nat) (f : JobRec → JobRec) :
    Aside (w.modJob tag f) (v.modJob tag f) where
  jobs := by simp only [Works.modJob, h.jobs]
  channels := h.channels
  trunks := h.trunks
  counters := h.counters
  size := h.size
  flash := h.flash
  agenda := h.agenda

theorem Aside.modChannel {w v : Works} (h : Aside w v) (n : Nat) (f : Channel → Channel) :
    Aside (w.modChannel n f) (v.modChannel n f) where
  jobs := h.jobs
  channels := by simp only [Works.modChannel, h.channels]
  trunks := h.trunks
  counters := h.counters
  size := h.size
  flash := h.flash
  agenda := h.agenda

theorem dropTrunk_aside {w v : Works} (h : Aside w v) (r : JobRec) : Aside (w.dropTrunk r) (v.dropTrunk r) := by
  unfold Works.dropTrunk
  cases r.channel with
  | none => exact h.modJob _ _
  | some n => exact (h.modJob _ _).modChannel _ _

/-- A trunk given up: its fields are cleared, and its FREE is handed over. -/
theorem giveUpTrunk_aside {w v : Works} (h : Aside w v) (e : Env) (r : JobRec) :
    Aside (if r.trunk.isSome then w.dropTrunk r else w) (v.giveUpTrunk e r) := by
  unfold Works.giveUpTrunk
  cases r.trunk with
  | none => exact h
  | some t => exact (dropTrunk_aside h r).trans (hand_aside e _ _ _)

/-- An only job in progress gives back all it holds. -/
theorem releaseGathering_of_one {w : Works} {r : JobRec} (e : Env) (one : w.jobs.recs = [r])
    (live : r.state.inProgress = true) :
    Aside { quietChannel r w with jobs := { w.jobs with recs := [givenBack r] } } (w.releaseGathering e r.tag) := by
  have left : Aside w ((w.giveBack e r (r.gathering.grants.filter Grant.wanted)).abandonSeize r) :=
    (giveBack_aside e r _ w).trans (abandonSeize_aside r _)
  have ended := (giveUpTrunk_aside left e r).modJob r.tag fun r => { r with gathering := Gathering.none }
  have same : (if r.trunk.isSome then w.dropTrunk r else w).modJob r.tag (fun r => { r with gathering := Gathering.none })
      = { quietChannel r w with jobs := { w.jobs with recs := [givenBack r] } } := by
    cases trunk : r.trunk with
    | none => simp [quietChannel, trunk, Works.modJob, one, givenBack]
    | some t =>
      cases channel : r.channel <;>
        simp [Works.dropTrunk, quietChannel, trunk, channel, Works.modJob, Works.modChannel, one, givenBack]
  rw [same] at ended
  rw [Works.releaseGathering, liveJob_of_job (job_of_one one) live]
  exact ended

/-! ### The settling after it -/

/-- A table where no record asks. -/
theorem askingJob_of_idle {e : Env} {w : Works} (idle : idleTable e w) (tag : Nat) : w.askingJob tag = none := by
  unfold Works.askingJob
  cases live : w.liveJob tag with
  | none => rfl
  | some r =>
    obtain ⟨-, asks, -⟩ := idle r (List.mem_of_find?_eq_some (job_of_liveJob live).1)
    simp [asks]

theorem seizeUnsent_of_idle {e : Env} {w : Works} (idle : idleTable e w) (tag trunk : Nat) : w.seizeUnsent e tag trunk = w := by
  unfold Works.seizeUnsent
  split
  · rename_i r live
    obtain ⟨-, -, seizing⟩ := idle r (List.mem_of_find?_eq_some (job_of_liveJob live).1)
    simp [seizing]
  · rfl

theorem startAnswers_of_idle {e : Env} {w : Works} (idle : idleTable e w) (tag serial : Nat) :
    w.startAnswers e tag serial = w := by
  unfold Works.startAnswers
  split
  · rfl
  · rename_i r live
    obtain ⟨-, asks, -⟩ := idle r (List.mem_of_find?_eq_some (job_of_liveJob live).1)
    cases phase : r.gathering.phase <;> simp_all [GatherPhase.asks]

/-- Work that is idle leaves an idle table, and what it hands on is idle. -/
theorem handle_of_idle {e : Env} {w : Works} {n : Note} (idle : idleTable e w) (note : idleNote n) :
    Spares w (handle e n w) ∧ ∃ ns, (handle e n w).agenda = w.agenda ++ ns ∧ ∀ n ∈ ns, idleNote n := by
  have still {v : Works} (same : v = w) : Spares w v ∧ ∃ ns, v.agenda = w.agenda ++ ns ∧ ∀ n ∈ ns, idleNote n := by
    subst same
    exact ⟨.refl v, [], by simp⟩
  cases n with
  | dispatch => exact still (dispatch_of_none fun r here => (idle r here).1)
  | verdict tag zone v =>
    have late : handle e (.verdict tag zone v) w = w.lateAnswer e tag zone v none := by
      simp [handle, Works.verdictReaches, askingJob_of_idle idle]
    rw [late]
    cases v with
    | denied reason => exact still rfl
    | granted ready mark =>
      have left := leaveZones_aside e e.part.node tag [zone] w
      exact ⟨left.toSpares, left.agenda⟩
    | queued position =>
      have left := leaveZones_aside e e.part.node tag [zone] w
      exact ⟨left.toSpares, left.agenda⟩
  | seizeLost tag trunk => exact still (seizeUnsent_of_idle idle tag trunk)
  | askUnsent tag serial => exact still (startAnswers_of_idle idle tag serial)
  | flashLook =>
    obtain ⟨fl, eq, -⟩ := lookAtFlash_eq e w
    have eq : handle e .flashLook w = { w with flash := fl } := eq
    rw [eq]
    exact ⟨⟨rfl, rfl, rfl, fun _ _ => rfl, rfl⟩, [], by simp⟩
  | notice | request | unit | channel | revoked | readyDue | beginRound | testStart => exact absurd note (by simp [idleNote])

/-- Idle work settles to what stood, but for zones, levels, line, flash and what counts the frames dropped. -/
theorem settle_idle {e : Env} {fuel : Nat} {w : Works} (idle : idleTable e w) (agenda : ∀ n ∈ w.agenda, idleNote n) :
    Spares w (settle e fuel w) := by
  induction fuel generalizing w with
  | zero => exact .refl w
  | succ fuel ih =>
    cases work : w.agenda with
    | nil =>
      rw [settle_of_empty e (fuel + 1) w work]
      exact .refl w
    | cons n rest =>
      rw [work] at agenda
      obtain ⟨first, later⟩ := List.forall_mem_cons.mp agenda
      have table : idleTable e { w with agenda := rest } := idle
      obtain ⟨spares, ns, handed, idleNs⟩ := handle_of_idle table first
      have taken : Spares w { w with agenda := rest } := ⟨rfl, rfl, rfl, fun _ _ => rfl, rfl⟩
      rw [settle_cons e fuel w n rest work]
      refine (taken.trans spares).trans (ih (fun r here => idle r (spares.jobs ▸ here)) fun m at_ => ?_)
      rw [handed] at at_
      exact (List.mem_append.mp at_).elim (later m) (idleNs m)

end Sys2Proof.Proofs.GivingBack
end


section
/-! The end of a job in progress (R70, R71) and the end of an airing's audio (R65). -/

namespace Sys2Proof.Proofs.JobEnds

open Sys2Proof Sys2Proof.Machine Sys2Proof.Proofs.Effects Sys2Proof.Proofs.Commands Sys2Proof.Proofs.GivingBack
open Sys2Proof.Proofs.GapAndRetry Sys2Proof.Proofs.SampleDecoding

/-! ### What letting go of a channel changes (R102) -/

/-- Work handed on is idle. -/
def handsIdle (w v : Works) : Prop := ∃ ns, v.agenda = w.agenda ++ ns ∧ ∀ n ∈ ns, idleNote n

theorem handsIdle.refl (w : Works) : handsIdle w w := ⟨[], by simp⟩

theorem handsIdle.trans {u v w : Works} (h : handsIdle u v) (k : handsIdle v w) : handsIdle u w := by
  obtain ⟨ns, first, idle⟩ := h
  obtain ⟨ms, second, idle'⟩ := k
  refine ⟨ns ++ ms, by rw [second, first, List.append_assoc], ?_⟩
  exact fun n at_ => (List.mem_append.mp at_).elim (idle n) (idle' n)

/-- A release touches the channels and the flash, and looks for a dispatch. -/
theorem release_eq (n : Nat) (w : Works) :
    ∃ fl cs ns, w.release n = { w with flash := fl, channels := cs, agenda := w.agenda ++ ns }
      ∧ (∀ m ∈ ns, m = Note.dispatch) ∧ cs.length = w.channels.length := by
  unfold Works.release
  dsimp only
  split
  · exact ⟨_, _, [], by rw [List.append_nil]; rfl, by simp, List.length_modify _ _ _⟩
  · exact ⟨_, _, [.dispatch], rfl, by simp, List.length_modify _ _ _⟩

theorem letGo_eq (n : Nat) (w : Works) :
    ∃ fl cs ns, w.letGo n = { w with flash := fl, channels := cs, agenda := w.agenda ++ ns } ∧ ∀ m ∈ ns, m = Note.dispatch := by
  have kept : ∃ fl cs ns, w = { w with flash := fl, channels := cs, agenda := w.agenda ++ ns } ∧ ∀ m ∈ ns, m = Note.dispatch :=
    ⟨w.flash, w.channels, [], by simp⟩
  obtain ⟨fl, cs, ns, eq, looks, -⟩ := release_eq n w
  have released : ∃ fl cs ns, w.release n = { w with flash := fl, channels := cs, agenda := w.agenda ++ ns }
      ∧ ∀ m ∈ ns, m = Note.dispatch := ⟨fl, cs, ns, eq, looks⟩
  unfold Works.letGo
  split
  all_goals assumption

theorem idleNote_of_dispatch {ns : List Note} (looks : ∀ m ∈ ns, m = Note.dispatch) : ∀ m ∈ ns, idleNote m :=
  fun m at_ => looks m at_ ▸ trivial

/-- A channel that holds nothing: no item, no entry playing, no trunk. -/
def emptied (c : Channel) : Prop := c.fifo = [] ∧ c.position = none ∧ c.transmit = none

theorem emptied_release {n : Nat} {w : Works} (place : n < w.channels.length) : emptied ((w.release n).channel n) := by
  have cleared (s : ChannelState) :
      ((w.modStream n Stream.finishOff).modChannel n fun c => { c.cleared with state := s }).channel n
        = { (w.channel n).cleared with state := s } :=
    channel_modChannel_same (w := w.modStream n Stream.finishOff) (fun c => { c.cleared with state := s }) place
  unfold Works.release
  dsimp only
  split
  · rw [cleared]
    exact ⟨rfl, rfl, rfl⟩
  · show emptied (((w.modStream n Stream.finishOff).modChannel n fun c => { c.cleared with state := .free }).channel n)
    rw [cleared]
    exact ⟨rfl, rfl, rfl⟩

/-- A channel let go is emptied, unless it has gone already. -/
theorem emptied_letGo {n : Nat} {w : Works} (place : n < w.channels.length)
    (held : emptied (w.channel n) ∨ ((w.channel n).state ≠ .free ∧ (w.channel n).state ≠ .flushing)) :
    emptied ((w.letGo n).channel n) := by
  have released := emptied_release place
  unfold Works.letGo
  split
  · rename_i free
    exact held.resolve_right fun h => h.1 free
  · rename_i flushing
    exact held.resolve_right fun h => h.2 flushing
  all_goals exact released

/-! ### The end of a job -/

/-- The counter a job's end counts (R184). -/
def countEnd (code : Code) (w : Works) : Works :=
  match code.group with
  | .normal => w.bump .jobsCompleted
  | .afterStart => w.bump .jobsFailed
  | .neverStarted => w

/-- A JOB-REPORT counts its end, and its frame is handed over when the mask sends it. -/
theorem takeReport_eq (e : Env) (b : ReportBody) (w : Works) :
    w.takeReport e b =
      if maskSends e.part.cfg.mask b.code.group then
        (countEnd b.code w).hand e (mkFrame e .information 0 (.jobReport b)) .plain
      else countEnd b.code w := by
  unfold Works.takeReport countEnd
  cases b.code.group <;> rfl

theorem takeReport_aside (e : Env) (b : ReportBody) (w : Works) : Aside (countEnd b.code w) (w.takeReport e b) := by
  rw [takeReport_eq]
  split
  · exact hand_aside e _ _ _
  · exact .refl _

theorem countEnd_eq (code : Code) (w : Works) : ∃ rep, countEnd code w = { w with report := rep } := by
  unfold countEnd
  split <;> exact ⟨_, rfl⟩

/-- What an end counts depends on the counters alone. -/
theorem counter_countEnd {v w : Works} (code : Code) (same : ∀ c, c ≠ .framesDropped → v.counter c = w.counter c)
    (size : v.report.counters.length = w.report.counters.length) (c : Counter) (other : c ≠ .framesDropped) :
    (countEnd code v).counter c = (countEnd code w).counter c := by
  unfold countEnd
  split
  · simp only [Works.counter_bump, same c other, size]
  · simp only [Works.counter_bump, same c other, size]
  · exact same c other

/-- The last-aired records once a job that has aired has been copied (R71). -/
def lastAiredWith (e : Env) (r : JobRec) (l : List (Option LastAired)) : List (Option LastAired) :=
  match r.lastBound with
  | some b =>
    if 1 ≤ r.airings ∧ r.isReplay = false then
      l.set (lastAiredPlace e r) (some
        { cls := r.cls, content := r.content, required := r.required, optional := r.optional, list := b.list,
          duration := b.duration })
    else l
  | none => l

theorem keepLastAired_eq (e : Env) (r : JobRec) (w : Works) :
    w.keepLastAired e r = { w with jobs := { w.jobs with lastAired := lastAiredWith e r w.jobs.lastAired } } := by
  unfold Works.keepLastAired lastAiredWith
  cases r.lastBound with
  | none => rfl
  | some b =>
    dsimp only
    split <;> rfl

/-- Last-aired records and counters but FRAMES-DROPPED stand, and the work handed on is idle. -/
structure KeepsCounts (w v : Works) : Prop where
  lastAired : v.jobs.lastAired = w.jobs.lastAired
  agenda : handsIdle w v
  counters : ∀ c, c ≠ .framesDropped → v.counter c = w.counter c
  size : v.report.counters.length = w.report.counters.length

theorem KeepsCounts.trans {u v w : Works} (h : KeepsCounts u v) (k : KeepsCounts v w) : KeepsCounts u w where
  lastAired := k.lastAired.trans h.lastAired
  agenda := h.agenda.trans k.agenda
  counters c other := (k.counters c other).trans (h.counters c other)
  size := k.size.trans h.size

theorem KeepsCounts.of_aside {w v : Works} (h : Aside w v) : KeepsCounts w v :=
  ⟨congrArg JobTable.lastAired h.jobs, h.agenda, h.counters, h.size⟩

theorem letGo_keepsCounts (n : Nat) (w : Works) : KeepsCounts w (w.letGo n) := by
  obtain ⟨fl, cs, ns, eq, idle⟩ := letGo_eq n w
  rw [eq]
  exact ⟨rfl, ⟨ns, rfl, idleNote_of_dispatch idle⟩, fun _ _ => rfl, rfl⟩

/-- Giving back keeps them, from any table that holds the job alone. -/
theorem releaseGathering_keepsCounts {w : Works} {r : JobRec} (e : Env) (one : w.jobs.recs = [r]) :
    KeepsCounts w (w.releaseGathering e r.tag) := by
  cases live : r.state.inProgress with
  | false =>
    rw [releaseGathering_of_waiting e (liveJob_of_waiting (job_of_one one) live)]
    exact .of_aside (.refl w)
  | true =>
    refine KeepsCounts.trans ?_ (.of_aside (releaseGathering_of_one e one live))
    unfold quietChannel
    split <;> exact ⟨rfl, .refl w, fun _ _ => rfl, rfl⟩

/-- What the end of the only job leaves, its completion code taken. -/
structure Ended (e : Env) (r : JobRec) (code : Code) (w v : Works) : Prop where
  recs : v.jobs.recs = []
  lastAired : v.jobs.lastAired = lastAiredWith e r w.jobs.lastAired
  agenda : handsIdle w v
  counters : ∀ c, c ≠ .framesDropped → v.counter c = (countEnd code w).counter c

/-- The record with which a job's end is reported. -/
def endingRecord (w : Works) (code : Code) (r s : JobRec) : JobRec :=
  { s with ending := some code, remaining := phrasesRemaining w r code }

/-- An ending job's works once the unit has left and the channel is let go. -/
def relieved (e : Env) (r : JobRec) (code : Code) (w : Works) : Works :=
  let u := (w.modJob r.tag (endingRecord w code r)).releaseGathering e r.tag
  match r.channel with
  | some n => (u.letGo n).dropReads n
  | none => u

theorem endJob_eq {w : Works} {r : JobRec} (e : Env) {code ending : Code} (one : w.jobs.recs = [r])
    (takes : r.ending.getD code = ending) :
    ∃ ns, (∀ n ∈ ns, n = Note.dispatch) ∧ w.endJob e r.tag code =
      ((((relieved e r ending w).keepLastAired e r).takeReport e (jobReport (endingRecord w ending r r) ending)).freeRecord
        r.tag).postAll ns := by
  subst takes
  simp only [Works.endJob, job_of_one one]
  split
  · exact ⟨[.dispatch], by simp, rfl⟩
  · exact ⟨[], by simp, by simp only [Works.postAll, List.append_nil]; rfl⟩

theorem relieved_keepsCounts {w : Works} {r : JobRec} (e : Env) (code : Code) (one : w.jobs.recs = [r]) :
    KeepsCounts w (relieved e r code w) := by
  have marked : KeepsCounts w (w.modJob r.tag (endingRecord w code r)) := ⟨rfl, .refl w, fun _ _ => rfl, rfl⟩
  have left := marked.trans (releaseGathering_keepsCounts e (recs_modJob_of_one (endingRecord w code r) one))
  unfold relieved
  cases r.channel with
  | none => exact left
  | some n => exact (left.trans (letGo_keepsCounts n _)).trans ⟨rfl, .refl _, fun _ _ => rfl, rfl⟩

/-- A job's record is copied, and its end counted and reported. -/
theorem takeReport_keepLastAired (e : Env) (r : JobRec) (b : ReportBody) (w : Works) :
    ((w.keepLastAired e r).takeReport e b).jobs.lastAired = lastAiredWith e r w.jobs.lastAired
      ∧ handsIdle w ((w.keepLastAired e r).takeReport e b)
      ∧ ∀ c, c ≠ .framesDropped → ((w.keepLastAired e r).takeReport e b).counter c = (countEnd b.code w).counter c := by
  rw [keepLastAired_eq]
  have reported := takeReport_aside e b { w with jobs := { w.jobs with lastAired := lastAiredWith e r w.jobs.lastAired } }
  have counted := counter_countEnd (v := { w with jobs := { w.jobs with lastAired := lastAiredWith e r w.jobs.lastAired } })
    (w := w) b.code (fun _ _ => rfl) rfl
  obtain ⟨rep, eq⟩ := countEnd_eq b.code { w with jobs := { w.jobs with lastAired := lastAiredWith e r w.jobs.lastAired } }
  have lastAired := congrArg JobTable.lastAired reported.jobs
  have agenda := reported.agenda
  rw [eq] at lastAired agenda
  exact ⟨lastAired, agenda, fun c other => (reported.counters c other).trans (counted c other)⟩

/-- The end of the only job. -/
theorem endJob_ended {w : Works} {r : JobRec} (e : Env) {code ending : Code} (one : w.jobs.recs = [r])
    (takes : r.ending.getD code = ending) : Ended e r ending w (w.endJob e r.tag code) := by
  have gone := recs_endJob_of_one e code one
  have kept := relieved_keepsCounts e ending one
  obtain ⟨lastAired, agenda, counters⟩ :=
    takeReport_keepLastAired e r (jobReport (endingRecord w ending r r) ending) (relieved e r ending w)
  obtain ⟨ns, idle, eq⟩ := endJob_eq e one takes
  refine ⟨gone, ?_, ?_, fun c other => ?_⟩
  · rw [eq]
    exact lastAired.trans (congrArg (lastAiredWith e r) kept.lastAired)
  · rw [eq]
    exact (kept.agenda.trans agenda).trans ⟨ns, rfl, idleNote_of_dispatch idle⟩
  · rw [eq]
    exact (counters c other).trans (counter_countEnd ending kept.counters kept.size c other)

/-- The end of the only job, with idle work left, settled. -/
theorem settle_endJob {w : Works} {r : JobRec} (e : Env) (fuel : Nat) {code ending : Code} (one : w.jobs.recs = [r])
    (idle : ∀ n ∈ w.agenda, idleNote n) (takes : r.ending.getD code = ending) :
    Spares (w.endJob e r.tag code) (settle e fuel (w.endJob e r.tag code)) := by
  have ended := endJob_ended e one takes
  refine settle_idle ?_ fun n at_ => ?_
  · simp [idleTable, ended.recs]
  · obtain ⟨ns, eq, later⟩ := ended.agenda
    rw [eq] at at_
    exact (List.mem_append.mp at_).elim (idle n) (later n)

/-! ### The end of an airing's audio (R65, R101) -/

/-- The channel whose list has ended. -/
def listEnded (c : Channel) : Channel :=
  { c with fifo := [], underrunEpisode := none, position := none, state := .held, transmit := none, output := 0 }

/-- A playing channel with LIST-END at its head holds its job's next airing. -/
theorem period_of_listEnd {w : Works} {n : Nat} (state : (w.channel n).state = .playing)
    (fifo : (w.channel n).fifo = [.listEnd]) (position : (w.channel n).position = none) :
    w.period n = (w.modChannel n listEnded).post (.channel n .endOfAudio) := by
  have plays : (w.channel n).plays = true := by simp [Channel.plays, state]
  simp only [Works.period, plays, if_true, Works.takeHead, fifo, position, state]
  rfl

/-- The record of a job with one airing more. -/
def airedOnce (r : JobRec) : JobRec := { r with airings := min 255 (r.airings + 1) }

/-- The record of a job in its gap. -/
def inGap (now : Instant) (r : JobRec) : JobRec :=
  { r with state := .gap, repsLeft := if r.isTrigger then r.repsLeft else r.repsLeft - 1, gapTimer := some (now + sec r.gap) }

theorem airingEnds_eq {w : Works} {r : JobRec} (e : Env) (one : w.jobs.recs = [r]) (state : r.state = .airing) :
    w.airingEnds e r.tag =
      let v := (w.modJob r.tag airedOnce).releaseGathering e r.tag
      if r.furtherDue then v.modJob r.tag (inGap e.now) else v.endJob e r.tag .completed := by
  have live : w.liveJob r.tag = some r := liveJob_of_job (job_of_one one) (by simp [state, JobState.inProgress])
  simp only [Works.airingEnds, live]
  rfl

/-- The end of the audio of the only job's airing: the channel is told, and the job's works settle. -/
theorem exec_of_listEnd {s : State} {n : Nat} {r : JobRec} (carrier : List Bool) (rested : s.rested) (sized : s.node.sized)
    (two : n < 2) (state : (s.ws.channel n).state = .playing) (fifo : (s.ws.channel n).fifo = [.listEnd])
    (position : (s.ws.channel n).position = none) (alone : (s.ws.channel (1 - n)).plays = false)
    (one : s.ws.jobs.recs = [r]) (channel : r.channel = some n) (airing : r.state = .airing) :
    let e : Env := { s.env with pins := { s.env.pins with carrier := carrier } }
    ∃ t, exec (.samplePeriod carrier) s = .next t
      ∧ t.ws = settle e 65535 ((s.ws.modChannel n listEnded).airingEnds e r.tag) := by
  obtain ⟨-, -, -, -, channels, -, -⟩ := sized
  have period := period_of_listEnd state fifo position
  have ws : (samplePeriod carrier s.node).ws = (s.ws.modChannel n listEnded).post (.channel n .endOfAudio) := by
    rw [samplePeriod_ws_of_alone carrier two alone, period]
    rw [period]
    exact channel_modChannel_of_ne _ (by omega)
  intro e
  refine ⟨_, run_eq (samplePeriod carrier) s, ?_⟩
  have told : handle e (.channel n .endOfAudio) (s.ws.modChannel n listEnded)
      = (s.ws.modChannel n listEnded).airingEnds e r.tag := by
    have on : (s.ws.modChannel n listEnded).jobOn n = some r := by simp [Works.jobOn, one, channel]
    simp [handle, Works.channelReports, on, airing]
  dsimp only [State.ws]
  rw [Node.settled_ws, ws]
  exact (settle_post_cons (w := s.ws.modChannel n listEnded) e 65535 _ rested).trans (congrArg (settle e 65535) told)

theorem quietChannel_channel (r : JobRec) (w : Works) (m : Nat) :
    (quietChannel r w).channel m = w.channel m ∨ (quietChannel r w).channel m = { w.channel m with transmit := none } := by
  unfold quietChannel
  split
  · rename_i n _ _
    by_cases here : n = m
    · subst here
      by_cases place : n < w.channels.length
      · exact .inr (channel_modChannel_same _ place)
      · refine .inl ?_
        simp [Works.channel, Works.modChannel, List.getD_eq_getElem?_getD, place]
    · exact .inl (channel_modChannel_of_ne _ here)
  · exact .inl rfl

/-- What giving back leaves of the channels. -/
structure GaveBack (w v : Works) : Prop where
  channel : ∀ m, v.channel m = w.channel m ∨ v.channel m = { w.channel m with transmit := none }
  size : v.channels.length = w.channels.length

theorem GaveBack.state {w v : Works} (h : GaveBack w v) (m : Nat) : (v.channel m).state = (w.channel m).state := by
  rcases h.channel m with eq | eq <;> rw [eq]

theorem GaveBack.transmit {w v : Works} (h : GaveBack w v) {m : Nat} (quiet : (w.channel m).transmit = none) :
    (v.channel m).transmit = none := by
  rcases h.channel m with eq | eq <;> rw [eq]
  exact quiet

theorem GaveBack.emptied {w v : Works} (h : GaveBack w v) {m : Nat} (empty : emptied (w.channel m)) :
    emptied (v.channel m) := by
  rcases h.channel m with eq | eq
  · rw [eq]
    exact empty
  · rw [eq]
    exact ⟨empty.1, empty.2.1, rfl⟩

theorem releaseGathering_gaveBack {w : Works} {r : JobRec} {tag : Nat} (e : Env) (one : w.jobs.recs = [r])
    (names : r.tag = tag) : GaveBack w (w.releaseGathering e tag) := by
  subst names
  cases live : r.state.inProgress with
  | false =>
    rw [releaseGathering_of_waiting e (liveJob_of_waiting (job_of_one one) live)]
    exact ⟨fun _ => .inl rfl, rfl⟩
  | true =>
    have left := releaseGathering_of_one e one live
    refine ⟨fun m => ?_, ?_⟩
    · rw [channel_congr left.channels m]
      exact quietChannel_channel r w m
    · refine (congrArg List.length left.channels).trans ?_
      unfold quietChannel
      split
      · exact List.length_modify _ _ _
      · rfl

theorem recs_releaseGathering_of_one {w : Works} {r : JobRec} {tag : Nat} (e : Env) (one : w.jobs.recs = [r])
    (names : r.tag = tag) (live : r.state.inProgress = true) : (w.releaseGathering e tag).jobs.recs = [givenBack r] := by
  subst names
  exact congrArg JobTable.recs (releaseGathering_of_one e one live).jobs

theorem channels_endJob {w : Works} {r : JobRec} (e : Env) {code ending : Code} (one : w.jobs.recs = [r])
    (takes : r.ending.getD code = ending) : (w.endJob e r.tag code).channels = (relieved e r ending w).channels := by
  obtain ⟨ns, -, eq⟩ := endJob_eq e one takes
  have reported := takeReport_aside e (jobReport (endingRecord w ending r r) ending) ((relieved e r ending w).keepLastAired e r)
  obtain ⟨rep, counted⟩ := countEnd_eq ending ((relieved e r ending w).keepLastAired e r)
  rw [eq]
  refine reported.channels.trans ((congrArg Works.channels counted).trans ?_)
  rw [keepLastAired_eq]

/-- The channel of a job that has ended is emptied. -/
theorem emptied_endJob {w : Works} {r : JobRec} {n : Nat} (e : Env) {code ending : Code} (one : w.jobs.recs = [r])
    (takes : r.ending.getD code = ending) (channel : r.channel = some n) (place : n < w.channels.length)
    (held : emptied (w.channel n) ∨ ((w.channel n).state ≠ .free ∧ (w.channel n).state ≠ .flushing)) :
    emptied ((w.endJob e r.tag code).channel n) := by
  have left := releaseGathering_gaveBack e (recs_modJob_of_one (endingRecord w ending r) one) rfl
  have state := left.state n
  have gone : emptied ((relieved e r ending w).channel n) := by
    unfold relieved
    rw [channel]
    refine emptied_letGo (place.trans_eq left.size.symm) (held.imp left.emptied fun ⟨free, flushing⟩ => ?_)
    exact ⟨fun h => free (state.symm.trans h), fun h => flushing (state.symm.trans h)⟩
  rw [channel_congr (channels_endJob e one takes) n]
  exact gone

/-- One count, in a report unit with its 16 counters. -/
theorem counter_bump_same {w : Works} (k : Counter) (size : w.report.counters.length = 16) :
    (w.bump k).counter k = saturate (w.counter k) := by
  have place : k.index < w.report.counters.length := by
    rw [size]
    cases k <;> decide
  rw [Works.counter_bump, if_pos ⟨rfl, place⟩]

theorem idleTable_of_empty {e : Env} {w : Works} (empty : w.jobs.recs = []) : idleTable e w := by
  simp [idleTable, empty]

theorem idle_of_handsIdle {w v : Works} (rested : w.agenda = []) (h : handsIdle w v) : ∀ n ∈ v.agenda, idleNote n := by
  obtain ⟨ns, eq, idle⟩ := h
  rw [eq, rested]
  exact idle

/-- The audio of an airing ends with another one due: the job is in its gap, and its channel stands. -/
theorem settle_airingEnds_of_further {w : Works} {r : JobRec} (e : Env) (fuel : Nat) (rested : w.agenda = [])
    (one : w.jobs.recs = [r]) (airing : r.state = .airing) (further : r.furtherDue = true) :
    (settle e fuel (w.airingEnds e r.tag)).jobs.recs = [inGap e.now (givenBack (airedOnce r))]
      ∧ ∀ m, ((settle e fuel (w.airingEnds e r.tag)).channel m).state = (w.channel m).state
        ∧ ((w.channel m).transmit = none → ((settle e fuel (w.airingEnds e r.tag)).channel m).transmit = none) := by
  have live : r.state.inProgress = true := by rw [airing]; rfl
  have one1 := recs_modJob_of_one airedOnce one
  have gave := releaseGathering_gaveBack (tag := r.tag) e one1 rfl
  have recs := recs_releaseGathering_of_one (tag := r.tag) e one1 rfl live
  have kept := releaseGathering_keepsCounts e one1
  have ends : w.airingEnds e r.tag = ((w.modJob r.tag airedOnce).releaseGathering e r.tag).modJob r.tag (inGap e.now) := by
    rw [airingEnds_eq e one airing]
    exact if_pos further
  have one2 : (w.airingEnds e r.tag).jobs.recs = [inGap e.now (givenBack (airedOnce r))] := by
    rw [ends]
    exact recs_modJob_of_one (inGap e.now) recs
  have idle : idleTable e (w.airingEnds e r.tag) := by
    simp [idleTable, one2, inGap, givenBack, eligible, Gathering.none, GatherPhase.asks]
  have spares := settle_idle (fuel := fuel) idle (idle_of_handsIdle rested (by rw [ends]; exact kept.agenda))
  refine ⟨(congrArg JobTable.recs spares.jobs).trans one2, fun m => ?_⟩
  have same : (settle e fuel (w.airingEnds e r.tag)).channel m
      = ((w.modJob r.tag airedOnce).releaseGathering e r.tag).channel m := by
    rw [channel_congr spares.channels m, ends]
    rfl
  rw [same]
  exact ⟨gave.state m, gave.transmit⟩

/-- The audio of the last airing ends: the job is COMPLETED. -/
theorem settle_airingEnds_of_last {w : Works} {r : JobRec} {n : Nat} (e : Env) (fuel : Nat) (rested : w.agenda = [])
    (wf : w.report.wf) (one : w.jobs.recs = [r]) (airing : r.state = .airing) (ending : r.ending = none)
    (last : r.furtherDue = false) (channel : r.channel = some n) (place : n < w.channels.length)
    (held : (w.channel n).state = .held) :
    let v := settle e fuel (w.airingEnds e r.tag)
    v.jobs.recs = [] ∧ (v.channel n).transmit = none ∧ v.counter .jobsCompleted = saturate (w.counter .jobsCompleted)
      ∧ v.jobs.lastAired = lastAiredWith e (airedOnce r) w.jobs.lastAired := by
  have live : r.state.inProgress = true := by rw [airing]; rfl
  have one1 := recs_modJob_of_one airedOnce one
  have gave := releaseGathering_gaveBack (tag := r.tag) e one1 rfl
  have recs := recs_releaseGathering_of_one (tag := r.tag) e one1 rfl live
  have kept := releaseGathering_keepsCounts e one1
  have takes : (givenBack (airedOnce r)).ending.getD .completed = .completed := congrArg (Option.getD · _) ending
  have ends : w.airingEnds e r.tag = ((w.modJob r.tag airedOnce).releaseGathering e r.tag).endJob e r.tag .completed := by
    rw [airingEnds_eq e one airing]
    exact if_neg (by simp [last])
  have ended := endJob_ended e recs takes
  have state : (((w.modJob r.tag airedOnce).releaseGathering e r.tag).channel n).state = .held := (gave.state n).trans held
  obtain ⟨-, -, quiet⟩ := emptied_endJob e recs takes channel (place.trans_eq gave.size.symm)
    (.inr ⟨by simp [state], by simp [state]⟩)
  have counted := ended.counters .jobsCompleted (by decide)
  have gone := ended.recs
  have lastAired := ended.lastAired
  have agenda := kept.agenda.trans ended.agenda
  change (((w.modJob r.tag airedOnce).releaseGathering e r.tag).endJob e r.tag .completed).jobs.recs = [] at gone
  rw [ends]
  have spares := settle_idle (fuel := fuel) (idleTable_of_empty (e := e) gone) (idle_of_handsIdle rested agenda)
  refine ⟨(congrArg JobTable.recs spares.jobs).trans gone, ?_, ?_, ?_⟩
  · rw [channel_congr spares.channels n]
    exact quiet
  · obtain ⟨size, -⟩ := wf
    refine (spares.counters _ (by decide)).trans (counted.trans ?_)
    refine (counter_bump_same .jobsCompleted (kept.size.trans size)).trans ?_
    exact congrArg saturate (kept.counters .jobsCompleted (by decide))
  · refine (congrArg JobTable.lastAired spares.jobs).trans (lastAired.trans ?_)
    exact congrArg (lastAiredWith e (airedOnce r)) kept.lastAired

/-- A REPLAY is copied to no last-aired record. -/
theorem lastAiredWith_of_replay {r : JobRec} (e : Env) (l : List (Option LastAired)) (replay : r.isReplay = true) :
    lastAiredWith e r l = l := by
  unfold lastAiredWith
  cases r.lastBound <;> simp [replay]

theorem lastAiredWith_of_bound {r : JobRec} {b : BoundAiring} (e : Env) (l : List (Option LastAired)) (bound : r.lastBound = some b)
    (other : r.isReplay = false) (aired : 1 ≤ r.airings) :
    lastAiredWith e r l = l.set (lastAiredPlace e r) (some
      { cls := r.cls, content := r.content, required := r.required, optional := r.optional, list := b.list,
        duration := b.duration }) := by
  simp [lastAiredWith, bound, other, aired]

/-- Settles O25, by whether an airing is still due. -/
theorem endOfAudioCompletesOrRepeats : Obligations.EndOfAudioCompletesOrRepeats := by
  intro s n r carrier rested sized wf two playing fifo position alone one channel airing none
  obtain ⟨t, run, settled⟩ := exec_of_listEnd carrier rested sized two playing fifo position alone one channel airing
  have place : n < s.node.ws.channels.length := by
    obtain ⟨-, -, -, -, channels, -⟩ := sized
    omega
  have held : (s.ws.modChannel n listEnded).channel n = listEnded (s.ws.channel n) := channel_modChannel_same _ place
  refine ⟨fun last => ?_, fun further => ?_⟩
  · obtain ⟨recs, quiet, counter, lastAired⟩ := settle_airingEnds_of_last (w := s.ws.modChannel n listEnded)
      { s.env with pins := { s.env.pins with carrier := carrier } } 65535 rested wf one airing none last channel
      (place.trans_eq (List.length_modify _ _ _).symm) (congrArg Channel.state held)
    rw [← settled] at recs quiet counter lastAired
    refine ⟨t, run, recs, quiet, counter, fun replay => ?_, fun b bound other => ?_⟩
    · exact lastAired.trans (lastAiredWith_of_replay _ _ replay)
    · have aired : 1 ≤ (airedOnce r).airings := by
        simp only [airedOnce]
        omega
      refine lastAired.trans ((lastAiredWith_of_bound (r := airedOnce r) _ _ bound other aired).trans ?_)
      refine congrArg (s.ws.jobs.lastAired.set · _) ?_
      show lastAiredPlace s.env r = _
      unfold lastAiredPlace
      dsimp only
      cases r.lastFace.bind s.env.facePosition with
      | some i => rfl
      | none => cases r.origin <;> rfl
  · obtain ⟨recs, channels⟩ := settle_airingEnds_of_further (w := s.ws.modChannel n listEnded)
      { s.env with pins := { s.env.pins with carrier := carrier } } 65535 rested one airing further
    obtain ⟨state, transmit⟩ := channels n
    rw [held] at state transmit
    rw [← settled] at recs state transmit
    exact ⟨t, _, run, recs, rfl, rfl, rfl, rfl, state, transmit rfl⟩

end Sys2Proof.Proofs.JobEnds
end


section
/-! The JOB-REPORT of a job that ends with room for its frames (R167, R184). -/

namespace Sys2Proof.Proofs.ReportedEnds

open Sys2Proof Sys2Proof.Machine Sys2Proof.Proofs.Effects Sys2Proof.Proofs.Commands Sys2Proof.Proofs.GivingBack
open Sys2Proof.Proofs.JobEnds Sys2Proof.Proofs.Reports Sys2Proof.Proofs.GapAndRetry

/-- Without work handed on, at most `k` frames have joined the queue. -/
structure Sends (k : Nat) (w v : Works) : Prop where
  agenda : v.agenda = w.agenda
  tx : v.line.tx.length ≤ w.line.tx.length + k

theorem Sends.refl (w : Works) : Sends 0 w w := ⟨rfl, Nat.le_refl _⟩

theorem Sends.trans {j k : Nat} {u v w : Works} (h : Sends j u v) (g : Sends k v w) : Sends (j + k) u w :=
  ⟨g.agenda.trans h.agenda, by have := h.tx; have := g.tx; omega⟩

theorem Sends.mono {j k : Nat} {w v : Works} (h : Sends j w v) (le : j ≤ k) : Sends k w v :=
  ⟨h.agenda, by have := h.tx; omega⟩

theorem hand_sends {e : Env} {w : Works} (f : Frame) (line : e.onLine) (room : w.room) : Sends 1 w (w.hand e f .plain) := by
  rw [hand_of_room f .plain line room]
  exact ⟨rfl, (enqueueFrame_length _ _).le⟩

/-- No zone of this node is given back, so no zone moves on. -/
theorem giveBack_sends {e : Env} {w : Works} {r : JobRec} {gs : List Grant} (line : e.onLine) (room : w.room)
    (distant : ∀ g ∈ gs, g.home ≠ .local) : Sends 1 w (w.giveBack e r gs) := by
  have none : gs.filter (fun g => g.home = .local) = [] := List.filter_eq_nil_iff.mpr (by simpa using distant)
  unfold Works.giveBack
  dsimp only
  rw [none]
  split
  · exact (Sends.refl w).mono (Nat.zero_le _)
  · exact hand_sends _ line room

theorem abandonSeize_sends (r : JobRec) (w : Works) : Sends 0 w (w.abandonSeize r) := by
  unfold Works.abandonSeize
  split
  · exact ⟨rfl, List.length_filter_le _ _⟩
  · exact .refl w

theorem giveUpTrunk_sends {e : Env} {w : Works} (r : JobRec) (line : e.onLine) (room : w.room) :
    Sends 1 w (w.giveUpTrunk e r) := by
  unfold Works.giveUpTrunk
  split
  · have dropped : Sends 0 w (w.dropTrunk r) := by
      unfold Works.dropTrunk
      dsimp only
      split <;> exact ⟨rfl, Nat.le_refl _⟩
    have room' : (w.dropTrunk r).room := by
      have := dropped.tx
      exact Nat.lt_of_le_of_lt this room
    exact (dropped.trans (hand_sends _ line room')).mono (by omega)
  · exact (Sends.refl w).mono (Nat.zero_le _)

theorem releaseGathering_sends {e : Env} {w : Works} {r : JobRec} {tag : Nat} (one : w.jobs.recs = [r]) (names : r.tag = tag)
    (line : e.onLine) (room : w.line.tx.length + 2 ≤ txCapacity) (distant : ∀ g ∈ r.gathering.grants, g.home ≠ .local) :
    Sends 2 w (w.releaseGathering e tag) := by
  subst names
  unfold Works.releaseGathering
  split
  · exact (Sends.refl w).mono (Nat.zero_le _)
  · rename_i s live
    obtain rfl : r = s := Option.some.inj ((job_of_one one).symm.trans (job_of_liveJob live).1)
    have left := giveBack_sends (r := r) (gs := r.gathering.grants.filter Grant.wanted) line
      (show w.line.tx.length < txCapacity by omega) fun g at_ => distant g (List.mem_filter.mp at_).1
    have abandoned := left.trans (abandonSeize_sends r _)
    have freed := abandoned.trans (giveUpTrunk_sends r line (by
      have := abandoned.tx
      show _ < txCapacity
      omega))
    exact freed.trans (k := 0) ⟨rfl, Nat.le_refl _⟩

/-- Work that leaves the line with an empty table. -/
def calmNote : Note → Prop
  | .dispatch | .flashLook => True
  | _ => False

/-- With an empty table calm work leaves the queue of frames. -/
theorem settle_calm {e : Env} {fuel : Nat} {w : Works} (empty : w.jobs.recs = []) (agenda : ∀ n ∈ w.agenda, calmNote n) :
    (settle e fuel w).line = w.line := by
  induction fuel generalizing w with
  | zero => rfl
  | succ fuel ih =>
    cases work : w.agenda with
    | nil => rw [settle_of_empty e (fuel + 1) w work]
    | cons n rest =>
      rw [work] at agenda
      obtain ⟨first, later⟩ := List.forall_mem_cons.mp agenda
      rw [settle_cons e fuel w n rest work]
      cases n with
      | dispatch =>
        have same : handle e .dispatch { w with agenda := rest } = { w with agenda := rest } :=
          dispatch_of_none (w := { w with agenda := rest }) (by simp [empty])
        rw [same]
        exact ih empty later
      | flashLook =>
        obtain ⟨fl, eq, -⟩ := lookAtFlash_eq e { w with agenda := rest }
        have eq : handle e .flashLook { w with agenda := rest } = { w with agenda := rest, flash := fl } := eq
        rw [eq]
        exact ih empty later
      | notice | request | unit | channel | verdict | revoked | seizeLost | askUnsent | readyDue | beginRound | testStart =>
        exact absurd first (by simp [calmNote])

/-- The only job's end, with room for the frames of its release and for its report: the report stands in the queue, and a
dispatch is looked for at most. -/
theorem endJob_reported_of_sends {e : Env} {w : Works} {r : JobRec} {k : Nat} {code ending : Code} (one : w.jobs.recs = [r])
    (takes : r.ending.getD code = ending) (line : e.onLine) (sends : maskSends e.part.cfg.mask ending.group = true)
    (room : w.line.tx.length + k < txCapacity)
    (releases : Sends k (w.modJob r.tag (endingRecord w ending r))
      ((w.modJob r.tag (endingRecord w ending r)).releaseGathering e r.tag)) :
    (∃ ns, (w.endJob e r.tag code).agenda = w.agenda ++ ns ∧ ∀ n ∈ ns, calmNote n)
      ∧ ∃ x ∈ (w.endJob e r.tag code).line.tx, ∃ b : ReportBody,
          x.frame = mkFrame e .information 0 (.jobReport b) ∧ b.tag = r.tag ∧ b.code = ending := by
  have relieves : (∃ ns, (relieved e r ending w).agenda = w.agenda ++ ns ∧ ∀ n ∈ ns, n = Note.dispatch)
      ∧ (relieved e r ending w).line.tx.length ≤ w.line.tx.length + k := by
    obtain ⟨agenda, tx⟩ := releases
    unfold relieved
    split
    · rename_i n _
      obtain ⟨fl, cs, ns, eq, looks⟩ := letGo_eq n ((w.modJob r.tag (endingRecord w ending r)).releaseGathering e r.tag)
      simp only [eq]
      exact ⟨⟨ns, congrArg (· ++ ns) agenda, looks⟩, tx⟩
    · exact ⟨⟨[], by simpa using agenda, by simp⟩, tx⟩
  obtain ⟨⟨ns, agenda, looks⟩, tx⟩ := relieves
  obtain ⟨ms, looks', eq⟩ := endJob_eq e one takes
  obtain ⟨rep, counted⟩ := countEnd_eq ending ((relieved e r ending w).keepLastAired e r)
  have sent : ((relieved e r ending w).keepLastAired e r).takeReport e (jobReport (endingRecord w ending r r) ending)
      = (countEnd ending ((relieved e r ending w).keepLastAired e r)).queueFrame
          (mkFrame e .information 0 (.jobReport (jobReport (endingRecord w ending r r) ending))) .plain := by
    rw [takeReport_eq]
    refine (if_pos sends).trans (hand_of_room _ .plain line ?_)
    show (countEnd ending ((relieved e r ending w).keepLastAired e r)).line.tx.length < txCapacity
    rw [counted, keepLastAired_eq]
    show (relieved e r ending w).line.tx.length < txCapacity
    omega
  rw [eq, sent, counted, keepLastAired_eq]
  refine ⟨⟨ns ++ ms, ?_, fun n at_ => ?_⟩, _, (mem_enqueueFrame _ _ _).mpr (.inl rfl), _, rfl, rfl, rfl⟩
  · show (relieved e r ending w).agenda ++ ms = _
    rw [agenda, List.append_assoc]
  · rw [(List.mem_append.mp at_).elim (looks n) (looks' n)]
    trivial

/-- The only job's end, with room for its frames: its report stands in the queue, and a dispatch is looked for at most. -/
theorem endJob_reported {e : Env} {w : Works} {r : JobRec} {code ending : Code} (one : w.jobs.recs = [r])
    (takes : r.ending.getD code = ending) (line : e.onLine) (sends : maskSends e.part.cfg.mask ending.group = true)
    (room : w.line.tx.length + 3 ≤ txCapacity) (distant : ∀ g ∈ r.gathering.grants, g.home ≠ .local) :
    (∃ ns, (w.endJob e r.tag code).agenda = w.agenda ++ ns ∧ ∀ n ∈ ns, calmNote n)
      ∧ ∃ x ∈ (w.endJob e r.tag code).line.tx, ∃ b : ReportBody,
          x.frame = mkFrame e .information 0 (.jobReport b) ∧ b.tag = r.tag ∧ b.code = ending := by
  exact endJob_reported_of_sends one takes line sends (by omega)
    (releaseGathering_sends (r := endingRecord w ending r r) (recs_modJob_of_one (endingRecord w ending r) one) rfl line
      (show w.line.tx.length + 2 ≤ txCapacity by omega) distant)

theorem postAll_nil (w : Works) : w.postAll [] = w := by
  cases w
  simp [Works.postAll]

/-- The only job fails, with calm work left besides: it is gone and counted, and its report stands in the queue when there
is room for its frames and the mask sends it. -/
theorem settle_failed {w : Works} {r : JobRec} (e : Env) (fuel : Nat) {code ending : Code} {ms : List Note} (one : w.jobs.recs = [r])
    (idle : ∀ n ∈ w.agenda, idleNote n) (calm : ∀ m ∈ ms, calmNote m) (takes : r.ending.getD code = ending) (fails : ending.group = .afterStart)
    (size : w.report.counters.length = 16) :
    let v := settle e fuel ((w.endJob e r.tag code).postAll ms)
    v.jobs.recs = [] ∧ v.counter .jobsFailed = saturate (w.counter .jobsFailed) ∧ Spares (w.endJob e r.tag code) v
      ∧ ((∀ n ∈ w.agenda, calmNote n) → e.onLine → e.part.cfg.mask.afterStart = true → w.line.tx.length + 3 ≤ txCapacity →
          (∀ g ∈ r.gathering.grants, g.home ≠ .local) →
          ∃ x ∈ v.line.tx, ∃ b : ReportBody, x.frame = mkFrame e .information 0 (.jobReport b) ∧ b.tag = r.tag ∧ b.code = ending) := by
  have ended := endJob_ended e one takes
  have idles : ∀ n ∈ ((w.endJob e r.tag code).postAll ms).agenda, idleNote n := by
    obtain ⟨ns, eq, later⟩ := ended.agenda
    intro n at_
    rcases List.mem_append.mp at_ with first | last
    · rw [eq] at first
      exact (List.mem_append.mp first).elim (idle n) (later n)
    · have := calm n last
      cases n <;> trivial
  have spares : Spares (w.endJob e r.tag code) (settle e fuel ((w.endJob e r.tag code).postAll ms)) :=
    Spares.trans (v := (w.endJob e r.tag code).postAll ms) ⟨rfl, rfl, rfl, fun _ _ => rfl, rfl⟩
      (settle_idle (idleTable_of_empty ended.recs) idles)
  have counted : countEnd ending w = w.bump .jobsFailed := by rw [countEnd, fails]
  refine ⟨(congrArg JobTable.recs spares.jobs).trans ended.recs, ?_, spares, fun before line mask room distant => ?_⟩
  · refine (spares.counters _ (by decide)).trans ((ended.counters _ (by decide)).trans ?_)
    rw [counted, counter_bump_same _ size]
  · obtain ⟨⟨ns, agenda, looks⟩, x, at_, b, frame, tag, names⟩ :=
      endJob_reported one takes line (by rw [fails]; exact mask) room distant
    have calmed : ∀ n ∈ ((w.endJob e r.tag code).postAll ms).agenda, calmNote n := by
      intro n here
      rcases List.mem_append.mp here with first | last
      · rw [agenda] at first
        exact (List.mem_append.mp first).elim (before n) (looks n)
      · exact calm n last
    have line' := settle_calm (e := e) (fuel := fuel) (w := (w.endJob e r.tag code).postAll ms) ended.recs calmed
    exact ⟨x, by rw [line']; exact at_, b, frame, tag, names⟩

end Sys2Proof.Proofs.ReportedEnds
end


section
/-! Sample periods, the end of silent entries, underruns and stalls, and the audio reads that fill a FIFO (chapters 4
and 5). -/

namespace Sys2Proof.Proofs.PlayoutCommands

open Sys2Proof Sys2Proof.Machine Sys2Proof.Proofs.Effects Sys2Proof.Proofs.Commands Sys2Proof.Proofs.GivingBack
open Sys2Proof.Proofs.JobEnds Sys2Proof.Proofs.ReportedEnds Sys2Proof.Proofs.GapAndRetry Sys2Proof.Proofs.SampleDecoding

/-! ### Streams -/

theorem stream_modStream_same {w : Works} {n : Nat} (f : Stream → Stream) (h : n < w.flash.streams.length) :
    (w.modStream n f).stream n = f (w.stream n) := by
  simp [Works.stream, Works.modStream, h]

theorem stream_modStream_of_ne {w : Works} {n m : Nat} (f : Stream → Stream) (h : n ≠ m) :
    (w.modStream n f).stream m = w.stream m := by
  simp [Works.stream, Works.modStream, h]

theorem stream_congr {w v : Works} (h : w.flash = v.flash) (n : Nat) : w.stream n = v.stream n := by
  simp [Works.stream, h]

/-- The arbiter's look changes a stream's read in flight alone. -/
theorem stream_lookAtFlash (e : Env) (w : Works) (m : Nat) :
    ∃ x, (w.lookAtFlash e).stream m = { w.stream m with inFlight := x } := by
  have same : ∃ x, w.stream m = { w.stream m with inFlight := x } := ⟨(w.stream m).inFlight, rfl⟩
  unfold Works.lookAtFlash
  split
  · exact same
  · split
    · rename_i n _
      unfold Works.issueAudio
      split
      · exact same
      · rename_i p _
        by_cases here : n = m
        · subst here
          by_cases place : n < w.flash.streams.length
          · exact ⟨_, stream_modStream_same _ place⟩
          · refine ⟨(w.stream n).inFlight, ?_⟩
            simp [Works.stream, Works.modStream, List.getD_eq_getElem?_getD, place]
        · obtain ⟨x, same⟩ := same
          exact ⟨x, (stream_modStream_of_ne _ here).trans same⟩
    · split <;> exact same

/-- The work a playing channel hands on when its stream or FIFO has changed: at most its start mark is taken back, and a
read goes on the port. -/
theorem settle_fetchChanged_of_plays {w : Works} {n : Nat} (e : Env) (rested : w.agenda = [])
    (plays : (w.channel n).plays = true) :
    ∃ fl, settle e settleFuel (w.fetchChanged n) = { w.testStart e n with flash := fl }
      ∧ ∀ m, ∃ x, fl.streams.getD m (Stream.reset 0) = { w.stream m with inFlight := x } := by
  have handed : (w.fetchChanged n).agenda = [.testStart n, .flashLook] := by simp [Works.fetchChanged, rested]
  have tested : settle e settleFuel (w.fetchChanged n) =
      settle e (65534 + 1) ({ w with agenda := [.flashLook] }.testStart e n) := settle_cons e 65535 _ _ _ handed
  have start : { w with agenda := [.flashLook] }.testStart e n = { w.testStart e n with agenda := [.flashLook] } := by
    have mark : ({ w with agenda := [.flashLook] }.channel n).startHeld = (w.channel n).startHeld := rfl
    rw [testStart_of_plays e plays, testStart_of_plays (w := { w with agenda := [.flashLook] }) e plays, mark]
    cases (w.channel n).startHeld <;> rfl
  have flash : (w.testStart e n).flash = w.flash := by
    rw [testStart_of_plays e plays]
    split <;> rfl
  have agenda : (w.testStart e n).agenda = [] := (testStart_agenda_of_plays e plays).trans rested
  obtain ⟨fl, eq, -⟩ := lookAtFlash_eq e (w.testStart e n)
  refine ⟨fl, ?_, fun m => ?_⟩
  · rw [tested, start, settle_cons e 65534 _ .flashLook [] rfl]
    have cleared : { { w.testStart e n with agenda := [.flashLook] } with agenda := [] } = w.testStart e n :=
      eq_clear_agenda agenda
    rw [cleared]
    exact (settle_of_empty e 65534 _ ((lookAtFlash_agenda e _).trans agenda)).trans eq
  · obtain ⟨x, looked⟩ := stream_lookAtFlash e (w.testStart e n) m
    rw [eq] at looked
    exact ⟨x, looked.trans (by rw [stream_congr flash m])⟩

/-- A playing channel after its start test. -/
theorem channel_testStart_of_plays {w : Works} {n : Nat} (e : Env) (plays : (w.channel n).plays = true) :
    ∃ x, (w.testStart e n).channel n = { w.channel n with startHeld := x } := by
  rw [testStart_of_plays e plays]
  split
  · by_cases place : n < w.channels.length
    · exact ⟨_, channel_modChannel_same _ place⟩
    · refine ⟨(w.channel n).startHeld, ?_⟩
      simp [Works.channel, Works.modChannel, List.getD_eq_getElem?_getD, place]
  · exact ⟨(w.channel n).startHeld, rfl⟩

/-! ### A sample period (R95 to R100) -/

/-- What the blocks read once the carrier levels of a period have arrived. -/
def withCarrier (carrier : List Bool) (e : Env) : Env := { e with pins := { e.pins with carrier := carrier } }

/-- When channel `n` alone plays, and its period leaves the other channel, the command is that period and its settling. -/
theorem exec_samplePeriod_of_alone {s : State} {n : Nat} {v u : Works} (carrier : List Bool) (two : n < 2)
    (alone : (s.ws.channel (1 - n)).plays = false) (period : s.ws.period n = v)
    (apart : v.channel (1 - n) = s.ws.channel (1 - n)) (settled : settle (withCarrier carrier s.env) settleFuel v = u) :
    exec (.samplePeriod carrier) s = .next { s with node := { env := withCarrier carrier s.env, ws := u } } := by
  have ws : (samplePeriod carrier s.node).ws = v := by
    rw [samplePeriod_ws_of_alone carrier two alone, period]
    rw [period]
    exact apart
  have effect_eq : effect (.samplePeriod carrier) s.node = { env := withCarrier carrier s.env, ws := v } :=
    congrArg (Node.mk _) ws
  rw [exec_of_effect effect_eq, Node.settled]
  simp only [settled]

/-- The first period of an episode is counted. -/
def countEpisode (n : Nat) (w : Works) : Works := if (w.channel n).underrunEpisode.isNone then w.bump .underruns else w

/-- What a channel reports when it has starved `k` periods more. -/
def starveNotes (n k : Nat) (c : Channel) : List Note :=
  (if c.underrunTotal < 4001 ∧ min 4001 (c.underrunTotal + k) = 4001 then [.channel n .underrun] else [])
    ++ if min 32001 (c.underrunEpisode.getD 0 + k) = 32001 then [.channel n .stalled] else []

theorem starve_eq {w : Works} {n k : Nat} (place : n < w.channels.length)
    (fresh : (w.channel n).underrunEpisode ≠ some 32001) :
    w.starve n k = ((countEpisode n w).modChannel n (Channel.starve k)).postAll (starveNotes n k (w.channel n)) := by
  have channels : (countEpisode n w).channels = w.channels := by
    unfold countEpisode
    split <;> rfl
  have starved : ((countEpisode n w).modChannel n (Channel.starve k)).channel n = (w.channel n).starve k := by
    rw [channel_modChannel_same _ (channels ▸ place), channel_congr channels n]
  have fold : (if (w.channel n).underrunEpisode.isNone then w.bump .underruns else w) = countEpisode n w := rfl
  simp only [Works.starve, if_neg fresh, fold]
  generalize (countEpisode n w).modChannel n (Channel.starve k) = u at starved ⊢
  have total : (u.channel n).underrunTotal = min 4001 ((w.channel n).underrunTotal + k) := by rw [starved, Channel.starve]
  have episode : (u.channel n).underrunEpisode = some (min 32001 ((w.channel n).underrunEpisode.getD 0 + k)) := by
    rw [starved, Channel.starve]
  have posted : (u.post (.channel n .underrun)).channel n = u.channel n := rfl
  rw [total, starveNotes]
  split
  · simp only [posted, episode, Option.some.injEq]
    split
    · simp [Works.post, Works.postAll]
    · simp [Works.post, Works.postAll]
  · simp only [episode, Option.some.injEq]
    split
    · simp [Works.post, Works.postAll]
    · simp [Works.postAll]

theorem starve_of_few {w : Works} {n k : Nat} (place : n < w.channels.length)
    (total : (w.channel n).underrunTotal + k < 4001) (episode : (w.channel n).underrunEpisode.getD 0 + k < 32001) :
    w.starve n k = (countEpisode n w).modChannel n (Channel.starve k) := by
  have fresh : (w.channel n).underrunEpisode ≠ some 32001 := by
    intro stalled
    rw [stalled] at episode
    simp at episode
  have few : min 4001 ((w.channel n).underrunTotal + k) ≠ 4001 := by omega
  have short : min 32001 ((w.channel n).underrunEpisode.getD 0 + k) ≠ 32001 := by omega
  rw [starve_eq place fresh, starveNotes, if_neg (fun h => few h.2), if_neg short]
  exact postAll_nil _

/-- A playing channel that holds nothing starves in its period, unless a gap or silence plays. -/
theorem period_of_dry {w : Works} {n : Nat} (plays : (w.channel n).plays = true) (silent : (w.channel n).playingSilent = none)
    (dry : (w.channel n).fifo = []) : w.period n = w.starve n 1 := by
  simp only [Works.period, plays, if_true, Works.takeHead]
  cases position : (w.channel n).position with
  | none => simp only [dry]
  | some q =>
    obtain ⟨place, item, kind, left⟩ := q
    obtain rfl : kind = .phrase := kind_of_playingSilent_none plays silent position
    simp only [dry]

/-- Settles O29. -/
theorem samplePeriodPlaysOrStarves : Obligations.SamplePeriodPlaysOrStarves := by
  intro s n carrier rested sized wf two plays silent alone
  have place : n < s.node.ws.channels.length := by
    obtain ⟨-, -, -, -, channels, -⟩ := sized
    omega
  have other : n ≠ 1 - n := by omega
  refine ⟨fun b i p rest head => ?_, fun dry few short => ?_⟩
  · have period := period_of_sample plays silent head
    have taken : (s.ws.modChannel n (playSample b rest)).channel n = playSample b rest (s.ws.channel n) :=
      channel_modChannel_same _ place
    have plays' : ((s.ws.modChannel n (playSample b rest)).channel n).plays = true := by rw [taken, playSample_plays, plays]
    obtain ⟨fl, settled, -⟩ := settle_fetchChanged_of_plays (w := s.ws.modChannel n (playSample b rest))
      (withCarrier carrier s.env) rested plays'
    obtain ⟨x, channel⟩ := channel_testStart_of_plays (withCarrier carrier s.env) plays'
    rw [taken] at channel
    refine ⟨_, exec_samplePeriod_of_alone carrier two alone period (channel_modChannel_of_ne _ other) settled,
      congrArg Channel.output channel, congrArg Channel.fifo channel, congrArg Channel.underrunEpisode channel, rfl⟩
  · have period := (period_of_dry plays silent dry).trans (starve_of_few place (by omega) (by omega))
    have starved (v : Works) (same : v.channels = s.ws.channels) :
        (v.modChannel n (Channel.starve 1)).channel n = (s.ws.channel n).starve 1 := by
      rw [channel_modChannel_same _ (same ▸ place), channel_congr same n]
    obtain ⟨size, -⟩ := wf
    unfold countEpisode at period
    cases first : (s.ws.channel n).underrunEpisode with
    | none =>
      simp only [first, Option.isNone_none, if_true] at period
      have now := starved (s.ws.bump .underruns) rfl
      refine ⟨_, exec_samplePeriod_of_alone carrier two alone period (channel_modChannel_of_ne _ other)
        (settle_of_empty _ _ _ rested), congrArg Channel.output now, (congrArg Channel.underrunTotal now).trans ?_,
        (congrArg Channel.underrunEpisode now).trans ?_, counter_bump_same .underruns size⟩
      · simp only [Channel.starve]
        omega
      · simp [Channel.starve, first]
    | some k =>
      simp only [first, Option.isNone_some] at period
      have now := starved s.ws rfl
      refine ⟨_, exec_samplePeriod_of_alone carrier two alone period (channel_modChannel_of_ne _ other)
        (settle_of_empty _ _ _ rested), congrArg Channel.output now, (congrArg Channel.underrunTotal now).trans ?_,
        (congrArg Channel.underrunEpisode now).trans ?_, rfl⟩
      · simp only [Channel.starve]
        omega
      · rw [first] at short
        simp only [Channel.starve, first, Option.getD_some] at short ⊢
        rw [Nat.min_eq_right (by omega)]

/-! ### Silent entries, underruns and stalls (R95, R99 to R101) -/

/-- The channel whose silent entry is over. -/
def silentOver (p : Playing) (c : Channel) : Channel :=
  { c with position := none, output := 0, played := if p.kind = .silence then c.played + 1 else c.played }

theorem effect_gapSilenceEnd {n : Node} {ch : Nat} {p : Playing} (silent : (n.ws.channel ch).playingSilent = some p) :
    effect (.gapSilenceEnd ch) n = { n with ws := n.ws.silentEntryEnds ch p } := by
  simp [effect, gapSilenceEnds, silent]

theorem silentEntryEnds_eq (n : Nat) (p : Playing) (w : Works) :
    w.silentEntryEnds n p =
      if (w.channel n).stopsAt p.position then (w.modChannel n (silentOver p)).stopEnds n
      else w.modChannel n (silentOver p) := rfl

/-- The stop entry of the only job's channel ends: the job is STALE and its channel is emptied. -/
theorem settle_stopEnds {w : Works} {n : Nat} {r : JobRec} (e : Env) (rested : w.agenda = []) (place : n < w.channels.length)
    (one : w.jobs.recs = [r]) (channel : r.channel = some n) :
    (settle e settleFuel (w.stopEnds n)).jobs.recs = [] ∧ emptied ((settle e settleFuel (w.stopEnds n)).channel n) := by
  obtain ⟨fl, cs, ns, eq, looks, size⟩ := release_eq n (w.post (.channel n .stopComplete))
  have empty : emptied ((w.stopEnds n).channel n) := emptied_release (w := w.post (.channel n .stopComplete)) place
  have eq : w.stopEnds n = { w with flash := fl, channels := cs, agenda := .channel n .stopComplete :: ns } := by
    refine eq.trans ?_
    simp [rested]
  have told : handle e (.channel n .stopComplete) { w with flash := fl, channels := cs, agenda := ns }
      = { w with flash := fl, channels := cs, agenda := ns }.endJob e r.tag .stale := by
    simp [handle, Works.channelReports, Works.jobOn, one, channel]
  have steps : settle e settleFuel (w.stopEnds n)
      = settle e 65535 ({ w with flash := fl, channels := cs, agenda := ns }.endJob e r.tag .stale) := by
    rw [eq, ← told]
    exact settle_cons e 65535 _ _ _ rfl
  rw [eq] at empty
  have spares := settle_endJob (w := { w with flash := fl, channels := cs, agenda := ns }) e 65535 one
    (idleNote_of_dispatch looks) (code := .stale) rfl
  rw [steps]
  refine ⟨(congrArg JobTable.recs spares.jobs).trans (recs_endJob_of_one e _ one), ?_⟩
  rw [channel_congr spares.channels n]
  exact emptied_endJob (w := { w with flash := fl, channels := cs, agenda := ns }) e one rfl channel (place.trans_eq size.symm)
    (.inl empty)

theorem of_dry {c : Channel} (dry : c.dry = true) : c.plays = true ∧ c.fifo = [] := by
  simp only [Channel.dry, Bool.and_eq_true, List.isEmpty_iff] at dry
  exact dry.1

theorem countEpisode_eq (n : Nat) (w : Works) : ∃ rep, countEpisode n w = { w with report := rep } := by
  unfold countEpisode
  split <;> exact ⟨_, rfl⟩

theorem counter_countEpisode (n : Nat) (w : Works) {c : Counter} (other : c ≠ .underruns) :
    (countEpisode n w).counter c = w.counter c := by
  have apart : Counter.underruns.index ≠ c.index := by cases c <;> simp_all [Counter.index]
  unfold countEpisode
  split
  · rw [Works.counter_bump, if_neg (fun h => apart h.1)]
  · rfl

theorem size_countEpisode (n : Nat) (w : Works) :
    (countEpisode n w).report.counters.length = w.report.counters.length := by
  unfold countEpisode
  split
  · exact List.length_modify _ _ _
  · rfl

/-- A record marked with an underrun. -/
def underrunFlagged (r : JobRec) : JobRec := { r with flags := { r.flags with underrun := true } }

theorem flag_underrun (tag : Nat) (w : Works) :
    w.flag tag (fun d => { d with underrun := true }) = w.modJob tag underrunFlagged := rfl

theorem handle_underrun {w : Works} {n : Nat} {r : JobRec} (e : Env) (one : w.jobs.recs = [r]) (channel : r.channel = some n) :
    handle e (.channel n .underrun) w = w.modJob r.tag underrunFlagged := by
  simp only [handle, Works.channelReports, Works.jobOn, one]
  simp [channel, flag_underrun]

theorem handle_stalled {w : Works} {n : Nat} {r : JobRec} (e : Env) (one : w.jobs.recs = [r]) (channel : r.channel = some n) :
    handle e (.channel n .stalled) w = w.endJob e r.tag .fetchStall := by
  simp [handle, Works.channelReports, Works.jobOn, one, channel]

/-- A stall reported by a block at rest, with an underrun before it or not, ends the job. -/
theorem settle_stalled {w : Works} {n : Nat} {r : JobRec} {ns : List Note} (e : Env) (rested : w.agenda = [])
    (one : w.jobs.recs = [r]) (channel : r.channel = some n) (before : ns = [] ∨ ns = [.channel n .underrun]) :
    ∃ (fuel : Nat) (jobs : JobTable) (r' : JobRec), r'.tag = r.tag ∧ r'.ending = r.ending ∧ r'.channel = r.channel ∧ r'.gathering = r.gathering
      ∧ jobs.recs = [r']
      ∧ settle e settleFuel (w.postAll (ns ++ [.channel n .stalled]))
          = settle e fuel ({ w with jobs := jobs }.endJob e r'.tag .fetchStall) := by
  rcases before with rfl | rfl
  · refine ⟨65535, w.jobs, r, rfl, rfl, rfl, rfl, one, ?_⟩
    rw [← handle_stalled e one channel]
    exact settle_post_cons e 65535 _ rested
  · have one' : (w.modJob r.tag underrunFlagged).jobs.recs = [underrunFlagged r] := recs_modJob_of_one _ one
    refine ⟨65534, (w.modJob r.tag underrunFlagged).jobs, underrunFlagged r, rfl, rfl, rfl, rfl, one', ?_⟩
    have flagged := handle_underrun (w := { w with agenda := [.channel n .stalled] }) e one channel
    refine (settle_cons e 65535 _ (.channel n .underrun) [.channel n .stalled] (by simp [rested])).trans ?_
    have start : { w.postAll ([.channel n .underrun] ++ [.channel n .stalled]) with agenda := [Note.channel n .stalled] }
        = { w with agenda := [.channel n .stalled] } := rfl
    rw [start, flagged]
    refine (settle_cons e 65534 _ (.channel n .stalled) [] rfl).trans ?_
    have stalled := handle_stalled (w := w.modJob r.tag underrunFlagged) e one' channel
    have clear : { ({ w with agenda := [.channel n .stalled] } : Works).modJob r.tag underrunFlagged with agenda := [] }
        = w.modJob r.tag underrunFlagged := eq_clear_agenda (w := w.modJob r.tag underrunFlagged) rested
    rw [clear, stalled]
    rfl

theorem effect_underrun {n : Node} {ch : Nat} (dry : (n.ws.channel ch).dry = true) (total : (n.ws.channel ch).underrunTotal < 4001) :
    effect (.underrun ch) n = { n with ws := n.ws.starve ch (4001 - (n.ws.channel ch).underrunTotal) } := if_pos ⟨dry, total⟩

theorem effect_stall {n : Node} {ch : Nat} (dry : (n.ws.channel ch).dry = true) :
    effect (.stall ch) n = { n with ws := n.ws.starve ch (32001 - (n.ws.channel ch).underrunEpisode.getD 0) } := if_pos dry

/-- Settles O30. -/
theorem silentEntriesUnderrunsAndStalls : Obligations.SilentEntriesUnderrunsAndStalls := by
  refine ⟨fun s n p rested silent goes => ?_, fun s n p r rested sized two silent stops one channel => ?_,
    fun s n r rested sized wf two dry one channel => ?_⟩
  · refine exec_of_effect_rested ((effect_gapSilenceEnd silent).trans ?_) rested
    rw [silentEntryEnds_eq, if_neg (by simp [goes])]
    rfl
  · have place : n < s.node.ws.channels.length := by
      obtain ⟨-, -, -, -, channels, -⟩ := sized
      omega
    have effect_eq := effect_gapSilenceEnd (n := s.node) silent
    rw [silentEntryEnds_eq, if_pos stops] at effect_eq
    obtain ⟨recs, fifo, position, transmit⟩ := settle_stopEnds (w := s.node.ws.modChannel n (silentOver p)) s.env rested
      (place.trans_eq (List.length_modify _ _ _).symm) one channel
    exact ⟨_, exec_of_works effect_eq rfl, recs, fifo, position, transmit⟩
  · have place : n < s.node.ws.channels.length := by
      obtain ⟨-, -, -, -, channels, -⟩ := sized
      omega
    obtain ⟨rep, counted⟩ := countEpisode_eq n s.ws
    refine ⟨fun total episode => ?_, fun fresh ending => ?_⟩
    · have fresh : (s.ws.channel n).underrunEpisode ≠ some 32001 := by
        intro stalled
        rw [stalled] at episode
        simp at episode
      have notes : starveNotes n (4001 - (s.ws.channel n).underrunTotal) (s.ws.channel n) = [.channel n .underrun] := by
        have full : min 4001 ((s.ws.channel n).underrunTotal + (4001 - (s.ws.channel n).underrunTotal)) = 4001 := by omega
        have short : min 32001 ((s.ws.channel n).underrunEpisode.getD 0 + (4001 - (s.ws.channel n).underrunTotal)) ≠ 32001 := by
          omega
        simp [starveNotes, total, full, short]
      have starved := starve_eq (k := 4001 - (s.ws.channel n).underrunTotal) place fresh
      rw [notes, counted] at starved
      have effect_eq := effect_underrun (n := s.node) dry total
      rw [starved] at effect_eq
      have flagged := handle_underrun (w := ({ s.ws with report := rep } : Works).modChannel n
        (Channel.starve (4001 - (s.ws.channel n).underrunTotal))) s.env one channel
      have settled := (settle_post (w := ({ s.ws with report := rep } : Works).modChannel n
        (Channel.starve (4001 - (s.ws.channel n).underrunTotal))) s.env (.channel n .underrun) rested
          (by rw [flagged]; exact rested)).trans flagged
      refine ⟨_, exec_of_works effect_eq settled, ?_, recs_modJob_of_one _ one⟩
      refine (congrArg Channel.underrunTotal (channel_modChannel_same (w := { s.ws with report := rep }) _ place)).trans ?_
      show min 4001 ((s.ws.channel n).underrunTotal + (4001 - (s.ws.channel n).underrunTotal)) = 4001
      omega
    · obtain ⟨plays, empty⟩ := of_dry dry
      have notes : ∃ ns, starveNotes n (32001 - (s.ws.channel n).underrunEpisode.getD 0) (s.ws.channel n)
          = ns ++ [.channel n .stalled] ∧ (ns = [] ∨ ns = [.channel n .underrun]) := by
        have full : min 32001 ((s.ws.channel n).underrunEpisode.getD 0 + (32001 - (s.ws.channel n).underrunEpisode.getD 0))
            = 32001 := by omega
        refine ⟨_, by rw [starveNotes, if_pos full], ?_⟩
        split
        · exact .inr rfl
        · exact .inl rfl
      obtain ⟨ns, notes, before⟩ := notes
      have starved := starve_eq (k := 32001 - (s.ws.channel n).underrunEpisode.getD 0) place fresh
      rw [notes] at starved
      have effect_eq := effect_stall (n := s.node) dry
      rw [starved] at effect_eq
      obtain ⟨fuel, jobs, r', tag, ending', channel', gathering, one', settled⟩ :=
        settle_stalled (w := (countEpisode n s.ws).modChannel n
          (Channel.starve (32001 - (s.ws.channel n).underrunEpisode.getD 0))) s.env
          (by rw [counted]; exact rested) (by rw [counted]; exact one) channel before
      have takes : r'.ending.getD .fetchStall = .fetchStall := by rw [ending', ending]; rfl
      obtain ⟨size, -⟩ := wf
      have idle : ∀ m ∈ s.node.ws.agenda, idleNote m := by simp [rested]
      have calm : ∀ m ∈ s.node.ws.agenda, calmNote m := by simp [rested]
      have failed := settle_failed (w := { (countEpisode n s.ws).modChannel n
          (Channel.starve (32001 - (s.ws.channel n).underrunEpisode.getD 0)) with jobs := jobs }) s.env fuel (ms := []) one'
        (by rw [counted]; exact idle) (by simp) takes rfl ((size_countEpisode n s.ws).trans size)
      rw [postAll_nil] at failed
      obtain ⟨gone, count, spares, reported⟩ := failed
      have starving : ((countEpisode n s.ws).modChannel n
          (Channel.starve (32001 - (s.ws.channel n).underrunEpisode.getD 0))).channel n
            = (s.ws.channel n).starve (32001 - (s.ws.channel n).underrunEpisode.getD 0) := by
        rw [counted]
        exact channel_modChannel_same _ place
      have state : (s.ws.channel n).state = .playing ∨ (s.ws.channel n).state = .stopping := by
        simpa [Channel.plays] using plays
      have held : ((s.ws.channel n).starve (32001 - (s.ws.channel n).underrunEpisode.getD 0)).state = (s.ws.channel n).state := rfl
      have empty := emptied_endJob (w := { (countEpisode n s.ws).modChannel n
          (Channel.starve (32001 - (s.ws.channel n).underrunEpisode.getD 0)) with jobs := jobs }) s.env one' takes
        (channel'.trans channel) (by rw [counted]; exact place.trans_eq (List.length_modify _ _ _).symm)
        (.inr (by
          show (((countEpisode n s.ws).modChannel n _).channel n).state ≠ _ ∧ (((countEpisode n s.ws).modChannel n _).channel n).state ≠ _
          rw [starving, held]
          rcases state with h | h <;> simp [h]))
      refine ⟨_, exec_of_works effect_eq settled, gone, ?_, ?_, fun ⟨line, mask, room, distant⟩ => ?_⟩
      · exact (congrArg Channel.fifo (channel_congr spares.channels n)).trans empty.1
      · exact count.trans (congrArg saturate (counter_countEpisode n s.ws (by decide)))
      · obtain ⟨x, at_, b, frame, names, code⟩ := reported (by rw [counted]; exact calm) line mask (by rw [counted]; exact room) (by rw [gathering]; exact distant)
        exact ⟨x, at_, b, frame, names.trans tag, code⟩

end Sys2Proof.Proofs.PlayoutCommands
end


section
/-! The audio reads that fill a channel's FIFO (R76, R83, R85). -/

namespace Sys2Proof.Proofs.AudioReads

open Sys2Proof Sys2Proof.Machine Sys2Proof.Proofs.Effects Sys2Proof.Proofs.Commands Sys2Proof.Proofs.JobEnds
open Sys2Proof.Proofs.PlayoutCommands Sys2Proof.Proofs.SampleDecoding

/-- An answered audio read of a RUNNING stream, with no FLASH-PORT before it. -/
theorem effect_audioRead_of_running {node : Node} {n : Nat} {p : PhraseEntry} {r : InFlight} {data : List Byte}
    (port : node.ws.flash.port = some (.audio n)) (healthy : node.ws.report.faults.flashPort = false)
    (running : (node.ws.stream n).state = .running) (flight : (node.ws.stream n).inFlight = some r)
    (current : (node.ws.stream n).current = some p) :
    effect (.audioReadComplete data) node =
      { node with ws := ((node.ws.freePort.modStream n (fun s => { s with inFlight := none })).takeAudio n p r data
          node.env).fetchChanged n } := by
  have still : node.ws.freePort.faultEvent node.env (fun f => { f with flashPort := false }) = node.ws.freePort :=
    faultEvent_of_same (w := node.ws.freePort) (by
      show { node.ws.report.faults with flashPort := false } = node.ws.report.faults
      rw [← healthy])
  have running : (node.ws.freePort.stream n).state = .running := running
  have flight : (node.ws.freePort.stream n).inFlight = some r := flight
  have current : (node.ws.freePort.stream n).current = some p := current
  have read : node.ws.audioRead node.env n (some data) =
      ((node.ws.freePort.modStream n (fun s => { s with inFlight := none })).takeAudio n p r data node.env).fetchChanged n := by
    simp only [Works.audioRead, Option.isNone_some, still, running, flight, current]
    simp
  have complete : node.ws.audioComplete node.env (some data) = node.ws.audioRead node.env n (some data) := by
    simp [Works.audioComplete, port]
  exact congrArg (Node.mk node.env) (complete.trans read)

/-- The samples of a whole block, as the FIFO holds them. -/
def blockItems (data : List Byte) (position : Nat) (p : PhraseEntry) : List FifoItem :=
  (data.take 504).map (fun b => .sample b position p.item)

/-- What the block of a good read that is not the phrase's last puts into the FIFO and the stream. -/
theorem goodRead_of_more {w : Works} {n : Nat} {p : PhraseEntry} (data : List Byte) (e : Env)
    (more : 2 ≤ (w.stream n).remaining) :
    w.goodRead n p data e =
      (w.place n (blockItems data (w.stream n).position p)).modStream n
        (fun s => { s with remaining := s.remaining - 1, budget := e.part.cfg.settings.budget }) := by
  have other : (w.stream n).remaining ≠ 1 := by omega
  simp [Works.goodRead, other, playable, blockSamples, blockItems]

/-- What stands of a playing channel and its stream once a change of them has settled. -/
theorem settle_fetchChanged_keeps {w : Works} {n : Nat} (e : Env) (rested : w.agenda = []) (plays : (w.channel n).plays = true) :
    (∃ x, (settle e settleFuel (w.fetchChanged n)).channel n = { w.channel n with startHeld := x })
      ∧ (∃ x, (settle e settleFuel (w.fetchChanged n)).stream n = { w.stream n with inFlight := x })
      ∧ (settle e settleFuel (w.fetchChanged n)).report = w.report := by
  obtain ⟨fl, settled, streams⟩ := settle_fetchChanged_of_plays e rested plays
  rw [settled]
  refine ⟨channel_testStart_of_plays e plays, streams n, ?_⟩
  show (w.testStart e n).report = w.report
  rw [testStart_of_plays e plays]
  split <;> rfl

/-- Settles O27. -/
theorem audioReadsFillTheFifo : Obligations.AudioReadsFillTheFifo := by
  intro s n p r data rested sized wf two port healthy playing running flight current
  obtain ⟨-, -, -, -, channels, streams, -⟩ := sized
  have effect_eq := effect_audioRead_of_running (data := data) port healthy running flight current
  have stream (f : Stream → Stream) (w : Works) (size : w.flash.streams.length = 2) :
      (w.modStream n f).stream n = f (w.stream n) := stream_modStream_same f (size ▸ two)
  have taken := stream (fun s => { s with inFlight := none }) s.node.ws.freePort streams
  have plays : (s.ws.channel n).plays = true := by simp [Channel.plays, playing]
  have size : (s.node.ws.freePort.modStream n (fun s => { s with inFlight := none })).flash.streams.length = 2 :=
    (List.length_modify _ _ _).trans streams
  generalize started : s.node.ws.freePort.modStream n (fun s => { s with inFlight := none }) = w at effect_eq taken size
  have channels : w.channels = s.node.ws.channels := by rw [← started]; rfl
  have report : w.report = s.node.ws.report := by rw [← started]; rfl
  have agenda : w.agenda = [] := by rw [← started]; exact rested
  have channel : w.channel n = s.ws.channel n := channel_congr channels n
  refine ⟨fun good more => ?_, fun unreadable budget => ?_⟩
  · have more' : 2 ≤ (w.stream n).remaining := by rw [taken]; exact more
    have read : w.takeAudio n p r data s.node.env = w.goodRead n p data s.node.env := by simp [Works.takeAudio, good]
    rw [read, goodRead_of_more data _ more'] at effect_eq
    generalize placed : w.place n (blockItems data (w.stream n).position p) = v at effect_eq
    have flash : v.flash = w.flash := by rw [← placed]; rfl
    have filled : v.channel n = { s.ws.channel n with
        fifo := (s.ws.channel n).fifo ++ blockItems data (s.ws.stream n).position p } := by
      rw [← placed, ← channel]
      refine (channel_modChannel_same _ (channels.symm ▸ by omega)).trans ?_
      rw [taken]
      rfl
    have moved := stream (fun x => { x with remaining := x.remaining - 1, budget := s.node.env.part.cfg.settings.budget }) v
      (flash ▸ size)
    obtain ⟨⟨x, onChannel⟩, ⟨y, onStream⟩, -⟩ := settle_fetchChanged_keeps
      (w := v.modStream n (fun x => { x with remaining := x.remaining - 1, budget := s.node.env.part.cfg.settings.budget }))
      s.node.env (by rw [← placed]; exact agenda) ((congrArg Channel.plays filled).trans plays)
    have moved := onStream.trans (congrArg (fun z : Stream => { z with inFlight := y })
      (moved.trans (by rw [stream_congr flash n, taken])))
    refine ⟨_, exec_of_works effect_eq rfl, ?_, congrArg Stream.remaining moved, congrArg Stream.budget moved⟩
    exact (congrArg Channel.fifo onChannel).trans (congrArg Channel.fifo filled)
  · have left : 1 ≤ (w.stream n).budget := by rw [taken]; exact budget
    have read : w.takeAudio n p r data s.node.env
        = (w.modStream n (fun x => { x with budget := x.budget - 1 })).bump .fetchRetries := by
      simp [Works.takeAudio, unreadable, left]
    rw [read] at effect_eq
    have moved := stream (fun x => { x with budget := x.budget - 1 }) w size
    obtain ⟨⟨x, onChannel⟩, ⟨y, onStream⟩, onReport⟩ := settle_fetchChanged_keeps
      (w := (w.modStream n (fun x => { x with budget := x.budget - 1 })).bump .fetchRetries) s.node.env agenda
      ((congrArg Channel.plays channel).trans plays)
    have moved := onStream.trans (congrArg (fun z : Stream => { z with inFlight := y }) (moved.trans (by rw [taken])))
    obtain ⟨counters, -⟩ := wf
    refine ⟨_, exec_of_works effect_eq rfl, ?_, (congrArg Stream.remaining moved).trans rfl, (congrArg Stream.budget moved).trans rfl, ?_⟩
    · have same : (w.channel n).fifo = (s.ws.channel n).fifo := congrArg Channel.fifo channel
      exact (congrArg Channel.fifo onChannel).trans same
    · refine (congrArg (fun z : ReportUnit => z.counters.getD Counter.fetchRetries.index 0) onReport).trans ?_
      refine (counter_bump_same (w := w) .fetchRetries (by rw [report]; exact counters)).trans ?_
      rw [Works.counter, report]
      rfl

end Sys2Proof.Proofs.AudioReads
end


section
/-! A channel that fills for a job that gathers (R63, R81, R92, R93, R133 to R137): the stream's start, the choice of a
trunk, and the settling of what they hand on. -/

namespace Sys2Proof.Proofs.Filling

open Sys2Proof Sys2Proof.Machine Sys2Proof.Proofs.Effects Sys2Proof.Proofs.Commands Sys2Proof.Proofs.PlayoutCommands
open Sys2Proof.Proofs.GapAndRetry Sys2Proof.Proofs.SampleDecoding Sys2Proof.Proofs.Reports

/-- What a change of one channel keeps of any channel it keeps of each. -/
theorem channel_modChannel_keeps {α : Type} {f : Channel → Channel} (g : Channel → α) (keeps : ∀ c, g (f c) = g c) (n m : Nat)
    (w : Works) : g ((w.modChannel n f).channel m) = g (w.channel m) := by
  by_cases here : n = m
  · subst here
    by_cases place : n < w.channels.length
    · rw [channel_modChannel_same f place, keeps]
    · simp [Works.channel, Works.modChannel, List.getD_eq_getElem?_getD, place]
  · rw [channel_modChannel_of_ne f here]

theorem stream_modStream_keeps {α : Type} {f : Stream → Stream} (g : Stream → α) (keeps : ∀ s, g (f s) = g s) (n m : Nat)
    (w : Works) : g ((w.modStream n f).stream m) = g (w.stream m) := by
  by_cases here : n = m
  · subst here
    by_cases place : n < w.flash.streams.length
    · rw [stream_modStream_same f place, keeps]
    · simp [Works.stream, Works.modStream, List.getD_eq_getElem?_getD, place]
  · rw [stream_modStream_of_ne f here]

/-! ### The stream takes up its list (R81) -/

/-- Flash and channels alone have changed, and no list, no stop point and no channel state among them. -/
structure Walked (w v : Works) : Prop where
  alone : ∃ fl cs, v = { w with flash := fl, channels := cs }
  list : ∀ m, (v.stream m).list = (w.stream m).list
  stop : ∀ m, (v.stream m).stopPoint = (w.stream m).stopPoint
  state : ∀ m, (v.channel m).state = (w.channel m).state

theorem Walked.trans {u v w : Works} (h : Walked u v) (k : Walked v w) : Walked u w where
  alone := by
    obtain ⟨fl, cs, rfl⟩ := h.alone
    obtain ⟨fl', cs', rfl⟩ := k.alone
    exact ⟨fl', cs', rfl⟩
  list m := (k.list m).trans (h.list m)
  stop m := (k.stop m).trans (h.stop m)
  state m := (k.state m).trans (h.state m)

theorem place_walked (n : Nat) (items : List FifoItem) (w : Works) : Walked w (w.place n items) where
  alone := ⟨_, _, rfl⟩
  list _ := rfl
  stop _ := rfl
  state m := channel_modChannel_keeps (f := fun c => { c with fifo := c.fifo ++ items }) Channel.state (fun _ => rfl) n m w

theorem modStream_walked {f : Stream → Stream} (n : Nat) (w : Works) (list : ∀ s, (f s).list = s.list)
    (stop : ∀ s, (f s).stopPoint = s.stopPoint) : Walked w (w.modStream n f) where
  alone := ⟨_, _, rfl⟩
  list m := stream_modStream_keeps Stream.list list n m w
  stop m := stream_modStream_keeps Stream.stopPoint stop n m w
  state _ := rfl

theorem stopsBy_of_no_stop {s : Stream} (none : s.stopPoint = none) (p : Nat) : s.stopsBy p = false := by
  simp [Stream.stopsBy, none]

/-- Without a stop point and with phrases that all have samples, a list is taken up without a word to others. -/
theorem takeUp_walked {n : Nat} {l : List ListEntry} (pos : Nat) {w : Works} (none : (w.stream n).stopPoint = none)
    (sampled : ∀ p, .phrase p ∈ l → 0 < p.samples) : Walked w (w.takeUp n pos l) := by
  induction l generalizing pos w with
  | nil => exact (place_walked n _ w).trans (modStream_walked n _ (fun _ => rfl) fun _ => rfl)
  | cons x rest ih =>
    have later : ∀ p, .phrase p ∈ rest → 0 < p.samples := fun p at_ => sampled p (List.mem_cons_of_mem _ at_)
    cases x with
    | gap item len =>
      have moved : Walked w ((w.place n [.gap pos item len]).modStream n (fun s => { s with position := pos, remaining := 0 })) :=
        (place_walked n _ w).trans (modStream_walked n _ (fun _ => rfl) fun _ => rfl)
      have none' := (moved.stop n).trans none
      rw [Works.takeUp]
      simp only [stopsBy_of_no_stop none', Bool.false_eq_true, if_false]
      exact moved.trans (ih (pos + 1) none' later)
    | phrase p =>
      have moved : Walked w (w.modStream n (fun s => { s with position := pos, remaining := 0 })) :=
        modStream_walked n _ (fun _ => rfl) fun _ => rfl
      rw [Works.takeUp]
      dsimp only
      split
      · have placed := moved.trans (place_walked n [.silence pos p.item] _)
        have none' := (placed.stop n).trans none
        simp only [stopsBy_of_no_stop none', Bool.false_eq_true, if_false]
        exact placed.trans (ih (pos + 1) none' later)
      · have some_ : p.samples ≠ 0 := Nat.pos_iff_ne_zero.mp (sampled p List.mem_cons_self)
        rw [if_neg some_]
        exact moved.trans ((place_walked n _ _).trans (modStream_walked n _ (fun _ => rfl) fun _ => rfl))

/-- A change that leaves the stream it is made to changes nothing. -/
theorem modStream_of_fixed {w : Works} {n : Nat} {f : Stream → Stream} (place : n < w.flash.streams.length)
    (fixed : f (w.stream n) = w.stream n) : w.modStream n f = w := by
  have same : w.flash.streams.modify n f = w.flash.streams := by
    refine List.ext_getElem (List.length_modify _ _ _) fun i h _ => ?_
    rw [List.getElem_modify]
    split
    · rename_i here
      subst here
      simpa [Works.stream, place] using fixed
    · rfl
  unfold Works.modStream
  rw [same]

/-- The start of a stream in IDLE. -/
theorem startStream_of_idle {w : Works} {n : Nat} (e : Env) (list : List ListEntry) (place : n < w.flash.streams.length)
    (idle : (w.stream n).state = .idle) : w.startStream e n list = w.beginList e n list := by
  unfold Works.startStream
  rw [modStream_of_fixed place (by simp only [idle])]
  simp [idle]

/-- The stream of an idle channel starts, and the channel fills. -/
theorem fillFrom_of_idle {w : Works} {n : Nat} {list : List ListEntry} (e : Env) (idle : (w.stream n).state = .idle)
    (channel : n < w.channels.length) (stream : n < w.flash.streams.length) (sampled : ∀ p, .phrase p ∈ list → 0 < p.samples) :
    ∃ fl cs, w.fillFrom e n list = { w with flash := fl, channels := cs, agenda := w.agenda ++ [.testStart n, .flashLook] }
      ∧ (fl.streams.getD n (Stream.reset 0)).list = list ∧ (cs.getD n Channel.reset).state = .filling := by
  have filling : ((w.modChannel n fun c => { c with state := .filling, played := 0 }).channel n).state = .filling :=
    congrArg Channel.state (channel_modChannel_same _ channel)
  have begins := startStream_of_idle (w := w.modChannel n fun c => { c with state := .filling, played := 0 }) e list stream idle
  have fresh := stream_modStream_same (w := w.modChannel n fun c => { c with state := .filling, played := 0 })
    (fun s => { s with state := .running, list := list, position := 0, remaining := 0, stopPoint := none,
                       budget := e.part.cfg.settings.budget, restart := none }) stream
  have walked := takeUp_walked 0 (congrArg Stream.stopPoint fresh) sampled
  obtain ⟨fl, cs, eq⟩ := walked.alone
  have list' := (walked.list n).trans (congrArg Stream.list fresh)
  have state := (walked.state n).trans filling
  rw [eq] at list' state
  refine ⟨fl, cs, ?_, list', state⟩
  unfold Works.fillFrom
  rw [begins]
  exact congrArg (Works.fetchChanged n) eq

/-! ### The choice of a trunk (R135, R137) -/

/-- A change of the only job's gathering. -/
theorem modGather_of_one {w : Works} {r : JobRec} (f : Gathering → Gathering) (one : w.jobs.recs = [r]) :
    w.modGather r.tag f = { w with jobs := { w.jobs with recs := [{ r with gathering := f r.gathering }] } } := by
  simp [Works.modGather, Works.modJob, one]

/-- In the first trunk round the only job has a SEIZE queued, or waits for the next round. -/
theorem chooseTrunk_of_first_round {e : Env} {w : Works} {r : JobRec} (one : w.jobs.recs = [r])
    (live : r.state.inProgress = true) (first : r.gathering.trunkRound = 1) (line : e.onLine) (room : w.room) :
    ∃ g l, w.chooseTrunk e r.tag = { w with jobs := { w.jobs with recs := [{ r with gathering := g }] }, line := l }
      ∧ g.phase = r.gathering.phase ∧ g.hold = r.gathering.hold := by
  have found := liveJob_of_job (job_of_one one) live
  simp only [Works.chooseTrunk, found]
  split
  · rename_i t _
    rw [modGather_of_one _ one]
    exact ⟨_, _, hand_of_room (w := { w with jobs := _ }) _ .plain line room, rfl, rfl⟩
  · rw [Works.trunkRoundFails, if_pos first, modGather_of_one _ one]
    exact ⟨_, w.line, rfl, rfl, rfl⟩

/-! ### The settling of a channel that fills (R93) -/

/-- Work that is the start test, its report, or a look of the arbiter. -/
def fillNote : Note → Prop
  | .testStart _ | .flashLook | .channel _ .startCondition => True
  | _ => False

/-- Jobs stand, and so do the lists of the streams and the states of the channels. -/
structure Fills (w v : Works) : Prop where
  jobs : v.jobs = w.jobs
  list : ∀ m, (v.stream m).list = (w.stream m).list
  state : ∀ m, (v.channel m).state = (w.channel m).state

theorem Fills.refl (w : Works) : Fills w w := ⟨rfl, fun _ => rfl, fun _ => rfl⟩

theorem Fills.trans {u v w : Works} (h : Fills u v) (k : Fills v w) : Fills u w :=
  ⟨k.jobs.trans h.jobs, fun m => (k.list m).trans (h.list m), fun m => (k.state m).trans (h.state m)⟩

/-- With no record in READY-WAIT a start condition starts nothing. -/
theorem tryStart_of_not_ready {w : Works} {tag : Nat} (e : Env) (waits : ∀ r ∈ w.jobs.recs, r.state ≠ .readyWait) :
    w.tryStart e tag = w := by
  unfold Works.tryStart
  split
  · rfl
  · rename_i r found
    have := waits r (List.mem_of_find?_eq_some found)
    split
    · rfl
    · simp [this]

theorem handle_of_fill {e : Env} {w : Works} {n : Note} (waits : ∀ r ∈ w.jobs.recs, r.state ≠ .readyWait) (note : fillNote n) :
    Fills w (handle e n w) ∧ ∃ ns, (handle e n w).agenda = w.agenda ++ ns ∧ ∀ n ∈ ns, fillNote n := by
  cases n with
  | testStart m =>
    have held (v : Works) (same : Fills w v) (agenda : v.agenda = w.agenda) :
        Fills w (if w.startCondition e m ∧ (w.channel m).startHeld = false then v.post (.channel m .startCondition) else v)
          ∧ ∃ ns, (if w.startCondition e m ∧ (w.channel m).startHeld = false then v.post (.channel m .startCondition)
            else v).agenda = w.agenda ++ ns ∧ ∀ n ∈ ns, fillNote n := by
      split
      · exact ⟨same.trans ⟨rfl, fun _ => rfl, fun _ => rfl⟩, [.channel m .startCondition], by simp [agenda], by simp [fillNote]⟩
      · exact ⟨same, [], by simp [agenda], by simp⟩
    refine held _ ?_ ?_
    · split
      · exact .refl w
      · exact ⟨rfl, fun _ => rfl, fun k => channel_modChannel_keeps
          (f := fun c => { c with startHeld := w.startCondition e m }) Channel.state (fun _ => rfl) m k w⟩
    · split <;> rfl
  | flashLook =>
    obtain ⟨fl, eq, -⟩ := lookAtFlash_eq e w
    have lists (m : Nat) : ((w.lookAtFlash e).stream m).list = (w.stream m).list := by
      obtain ⟨x, same⟩ := stream_lookAtFlash e w m
      rw [same]
    refine ⟨⟨?_, lists, fun m => congrArg Channel.state (channel_congr (lookAtFlash_channels e w) m)⟩, [], ?_, by simp⟩
    · show (w.lookAtFlash e).jobs = w.jobs
      rw [eq]
    · rw [List.append_nil]
      exact lookAtFlash_agenda e w
  | channel m u =>
    cases u with
    | startCondition =>
      have still : handle e (.channel m .startCondition) w = w := by
        show w.channelReports e m .startCondition = w
        unfold Works.channelReports
        split
        · rfl
        · exact tryStart_of_not_ready e waits
      rw [still]
      exact ⟨.refl w, [], by simp, by simp⟩
    | _ => exact absurd note (by simp [fillNote])
  | notice | request | unit | dispatch | verdict | revoked | readyDue | beginRound | seizeLost | askUnsent =>
    exact absurd note (by simp [fillNote])

/-- Nothing that a filling channel hands on moves a job. -/
theorem settle_fill {e : Env} {fuel : Nat} {w : Works} (waits : ∀ r ∈ w.jobs.recs, r.state ≠ .readyWait)
    (agenda : ∀ n ∈ w.agenda, fillNote n) : Fills w (settle e fuel w) := by
  induction fuel generalizing w with
  | zero => exact .refl w
  | succ fuel ih =>
    cases work : w.agenda with
    | nil =>
      rw [settle_of_empty e (fuel + 1) w work]
      exact .refl w
    | cons n rest =>
      rw [work] at agenda
      obtain ⟨first, later⟩ := List.forall_mem_cons.mp agenda
      have table : ∀ r ∈ ({ w with agenda := rest } : Works).jobs.recs, r.state ≠ .readyWait := waits
      obtain ⟨fills, ns, handed, more⟩ := handle_of_fill (e := e) table first
      have taken : Fills w { w with agenda := rest } := ⟨rfl, fun _ => rfl, fun _ => rfl⟩
      rw [settle_cons e fuel w n rest work]
      refine (taken.trans fills).trans (ih (fun r here => waits r (fills.jobs ▸ here)) fun m at_ => ?_)
      rw [handed] at at_
      exact (List.mem_append.mp at_).elim (later m) (more m)

end Sys2Proof.Proofs.Filling
end


section
/-! The binding reads (R63, R73, R75, R78, R79, R87): the template and directory reads of a job's binding, and a read
without response. -/

namespace Sys2Proof.Proofs.BindingReads

open Sys2Proof Sys2Proof.Machine Sys2Proof.Proofs.Effects Sys2Proof.Proofs.Commands Sys2Proof.Proofs.GivingBack
open Sys2Proof.Proofs.JobEnds Sys2Proof.Proofs.ReportedEnds Sys2Proof.Proofs.PlayoutCommands Sys2Proof.Proofs.GapAndRetry
open Sys2Proof.Proofs.SampleDecoding Sys2Proof.Proofs.Reports Sys2Proof.Proofs.Filling

/-! ### Looks of the arbiter (R79, R84) -/

/-- A read waits, or is on the port for its binding. -/
def served (n : Nat) (read : BindRead) (fl : Flash) : Prop :=
  WaitingRead.mk n read ∈ fl.waiting ∨ fl.port = some (.bind n read true)

/-- A look keeps a read waiting or on the port. -/
theorem lookAtFlash_served {w : Works} {n : Nat} {read : BindRead} (e : Env) (asked : served n read w.flash) :
    ∃ fl, w.lookAtFlash e = { w with flash := fl } ∧ served n read fl := by
  obtain ⟨fl, eq, keeps⟩ := lookAtFlash_eq e w
  rcases asked with waits | port
  · exact ⟨fl, eq, keeps _ waits⟩
  · have still : w.lookAtFlash e = w := by simp [Works.lookAtFlash, port]
    exact ⟨w.flash, still, .inr port⟩

/-- A read asked for, and one more look: it waits, or is on the port. -/
theorem settle_askRead_look {w : Works} (e : Env) (n : Nat) (read : BindRead) (rested : w.agenda = []) :
    ∃ fl, settle e settleFuel ((w.askRead n read).post .flashLook) = { w with flash := fl } ∧ served n read fl := by
  obtain ⟨fl, eq, waits⟩ := lookAtFlash_served (w := { asking n read w with agenda := [.flashLook] }) e
    (.inl (List.mem_append_right _ (List.mem_singleton_self _)))
  obtain ⟨fl', eq', waits'⟩ := lookAtFlash_served (w := { w with flash := fl }) e waits
  have agenda : ((w.askRead n read).post .flashLook).agenda = .flashLook :: [.flashLook] := by
    simp [askRead_eq, asking, rested]
  have first : handle e .flashLook { (w.askRead n read).post .flashLook with agenda := [.flashLook] }
      = { w with flash := fl, agenda := [.flashLook] } := eq
  have second : handle e .flashLook { w with flash := fl, agenda := [] } = { w with flash := fl' } := by
    have same : { w with flash := fl, agenda := [] } = { w with flash := fl } := by rw [← rested]
    rw [same]
    exact eq'
  refine ⟨fl', ?_, waits'⟩
  rw [show settleFuel = 65534 + 1 + 1 from rfl, settle_cons e _ _ _ _ agenda, first, settle_cons e 65534 _ .flashLook [] rfl, second]
  exact settle_of_empty e 65534 _ rested

/-! ### The lookups of a binding (R79) -/

/-- A binding with what its lookups have found. -/
def lookedUp (b : Binding) (found : List ListEntry × List ListEntry) : Binding :=
  { b with bound := b.bound ++ found.1, todo := found.2 }

/-- The record of a job with its binding. -/
def withBinding (b : Binding) (r : JobRec) : JobRec := { r with binding := some b }

theorem continueBinding_of_needs {w : Works} {r : JobRec} {b : Binding} {n block : Nat} (e : Env) (one : w.jobs.recs = [r])
    (binding : r.binding = some b) (channel : r.channel = some n)
    (needs : neededBlock (lookUps w.flash.cache b.todo).2 = some block) :
    w.continueBinding e r.tag =
      (w.modJob r.tag (withBinding (lookedUp b (lookUps w.flash.cache b.todo)))).askRead n (.directory block) := by
  simp only [Works.continueBinding, job_of_one one, binding, channel, needs]
  rfl

theorem continueBinding_of_found {w : Works} {r : JobRec} {b : Binding} (e : Env) (one : w.jobs.recs = [r])
    (binding : r.binding = some b) (found : neededBlock (lookUps w.flash.cache b.todo).2 = none) :
    w.continueBinding e r.tag =
      (w.modJob r.tag (withBinding (lookedUp b (lookUps w.flash.cache b.todo)))).endBinding e r.tag := by
  simp only [Works.continueBinding, job_of_one one, binding, found]
  rfl

/-- The end of a binding that has failed, or whose job is stale. -/
theorem endBinding_of_failed {w : Works} {r : JobRec} {b : Binding} (e : Env) (one : w.jobs.recs = [r])
    (binding : r.binding = some b) (fails : r.staleMark = true ∨ b.failed = true) :
    w.endBinding e r.tag = w.endJob e r.tag (if r.staleMark = true then .stale else .bindFail) := by
  simp only [Works.endBinding, job_of_one one, binding]
  cases stale : r.staleMark with
  | true => rfl
  | false =>
    have failed : b.failed = true := fails.resolve_left (by simp [stale])
    simp [failed]

/-- The record of a job whose binding is done. -/
def boundRecord (b : Binding) (r : JobRec) : JobRec :=
  { r with
    binding := none, expanded := some (cutDuration b.bound.length b.bound),
    duration := airingDuration (cutDuration b.bound.length b.bound), state := .gathering,
    flags := { r.flags with
      truncated := r.flags.truncated || decide ((cutDuration b.bound.length b.bound).length < b.bound.length) },
    lastBound := some { list := cutDuration b.bound.length b.bound,
                        duration := airingDuration (cutDuration b.bound.length b.bound) } }

/-- The end of a binding that has found its phrases. -/
theorem endBinding_of_bound {w : Works} {r : JobRec} {b : Binding} {n : Nat} (e : Env) (one : w.jobs.recs = [r])
    (binding : r.binding = some b) (channel : r.channel = some n) (fresh : r.staleMark = false) (good : b.failed = false) :
    w.endBinding e r.tag =
      ((w.modJob r.tag (boundRecord b)).fillFrom e n (cutDuration b.bound.length b.bound)).beginGathering e r.tag := by
  simp only [Works.endBinding, job_of_one one, binding, channel, fresh, good, Bool.false_eq_true, if_false]
  rfl

/-- The gathering of a job with a remote zone begins with the choice of a trunk. -/
theorem beginGathering_of_remote {w : Works} {r : JobRec} {zone : Nat} (e : Env) (one : w.jobs.recs = [r])
    (live : r.state.inProgress = true) (state : e.part.state = .active ∨ e.part.state = .quiet)
    (listed : zone ∈ r.required ++ r.optional) (away : w.homes zone = false) (home : (e.homeOf zone).isSome = true) :
    w.beginGathering e r.tag =
      (w.modGather r.tag (fun _ => { Gathering.none with
        hold := declaredHold r.duration e.part.cfg.settings.gather, grants := freshGrants e w r, phase := .trunk })).chooseTrunk
        e r.tag := by
  have remote : (homeFor e w zone).isRemote = true := by
    obtain ⟨n, home⟩ := Option.isSome_iff_exists.mp home
    simp [homeFor, away, home, Home.isRemote]
  have distant : (freshGrants e w r).any (fun g => g.home.isRemote) = true := by
    rw [List.any_eq_true]
    rcases List.mem_append.mp listed with required | optional
    · exact ⟨_, List.mem_append_left _ (List.mem_map_of_mem required), remote⟩
    · exact ⟨_, List.mem_append_right _ (List.mem_map_of_mem optional), remote⟩
  have away : ¬ (e.part.state = .isolated ∨ e.part.state = .listen) := by
    rcases state with state | state <;> simp [state]
  simp only [Works.beginGathering, liveJob_of_job (job_of_one one) live, if_neg away, distant, if_true]

/-! ### Completions (R75, R78, R79) -/

theorem faultEvent_of_healthy {w : Works} (e : Env) (healthy : w.report.faults.flashPort = false) :
    w.freePort.faultEvent e (fun f => { f with flashPort := false }) = w.freePort :=
  faultEvent_of_same (w := w.freePort) (by
    show { w.report.faults with flashPort := false } = w.report.faults
    rw [← healthy])

theorem bindingOn_of_one {w : Works} {r : JobRec} {n : Nat} (one : w.jobs.recs = [r]) (channel : r.channel = some n)
    (binding : r.binding.isSome = true) : w.bindingOn n true = some r := by
  have on : w.jobOn n = some r := by simp [Works.jobOn, one, channel]
  rw [Works.bindingOn, if_pos rfl, on]
  exact Option.filter_some_pos binding

/-- A directory block in the cache, and the port free. -/
def cached (block : Nat) (data : List Byte) (w : Works) : Works :=
  { w.freePort with flash := { w.freePort.flash with cache := some (block, data) } }

theorem effect_directoryRead {node : Node} {r : JobRec} {n block : Nat} {data : List Byte} (one : node.ws.jobs.recs = [r])
    (channel : r.channel = some n) (binding : r.binding.isSome = true)
    (port : node.ws.flash.port = some (.bind n (.directory block) true)) (healthy : node.ws.report.faults.flashPort = false) :
    effect (.directoryReadComplete data) node =
      { node with ws := ((cached block data node.ws).continueBinding node.env r.tag).post .flashLook } := by
  have on : (cached block data node.ws).bindingOn n true = some r := bindingOn_of_one one channel binding
  have read : node.ws.directoryRead node.env (some data) =
      ((cached block data node.ws).continueBinding node.env r.tag).post .flashLook := by
    unfold cached at on ⊢
    simp only [Works.directoryRead, port, Option.isNone_some, faultEvent_of_healthy node.env healthy, Option.map_some, on]
  exact congrArg (Node.mk node.env) read

theorem effect_templateRead {node : Node} {r : JobRec} {n template : Nat} {data : List Byte} (one : node.ws.jobs.recs = [r])
    (channel : r.channel = some n) (binding : r.binding.isSome = true)
    (port : node.ws.flash.port = some (.bind n (.template template) true)) (healthy : node.ws.report.faults.flashPort = false) :
    effect (.templateReadComplete data) node =
      { node with ws := (node.ws.freePort.expandJob node.env r.tag (templateItems data)).post .flashLook } := by
  have on : node.ws.freePort.bindingOn n true = some r := bindingOn_of_one one channel binding
  have read : node.ws.templateRead node.env (some data) =
      (node.ws.freePort.expandJob node.env r.tag (templateItems data)).post .flashLook := by
    simp only [Works.templateRead, port, Option.isNone_some, faultEvent_of_healthy node.env healthy, on]
  exact congrArg (Node.mk node.env) read

/-- The record of a job whose items have been expanded. -/
def expandedRecord (e : Env) (items : List Item) (r s : JobRec) : JobRec :=
  let x := expandItems (contextOf e r) items
  { s with
    flags := { s.flags with
      truncated := s.flags.truncated || x.2,
      clampedTime := s.flags.clampedTime ||
        ((match r.snapshot with | some s => s.clamped | none => false) && speaksTime (contextOf e r) items) },
    binding := some { awaitingTemplate := false, bound := [], todo := x.1,
                      failed := items.isEmpty || essentialAbsent (contextOf e r) items } }

theorem expandJob_eq {w : Works} {r : JobRec} (e : Env) (items : List Item) (one : w.jobs.recs = [r]) :
    w.expandJob e r.tag items = (w.modJob r.tag (expandedRecord e items r)).continueBinding e r.tag := by
  simp only [Works.expandJob, job_of_one one]
  rfl

/-- A directory read's completion keeps its block, and FLASH-PORT goes. -/
theorem directoryRead_keeps {node : Node} {n block : Nat} {live : Bool} {data : List Byte}
    (port : node.ws.flash.port = some (.bind n (.directory block) live)) :
    effect (.directoryReadComplete data) node = { node with ws := node.ws.directoryRead node.env (some data) }
      ∧ (node.ws.directoryRead node.env (some data)).flash.cache = some (block, data)
      ∧ (node.ws.directoryRead node.env (some data)).report.faults = { node.ws.report.faults with flashPort := false } := by
  have moved : ∃ w : Works, w.flash.cache = some (block, data)
      ∧ w.report.faults = { node.ws.report.faults with flashPort := false }
      ∧ Moves w (node.ws.directoryRead node.env (some data)) := by
    refine ⟨{ node.ws.freePort.faultEvent node.env (fun f => { f with flashPort := false }) with
      flash := { (node.ws.freePort.faultEvent node.env (fun f => { f with flashPort := false })).flash with
        cache := some (block, data) } }, rfl, faultEvent_faults _ _ _, ?_⟩
    simp only [Works.directoryRead, port, Option.isNone_some, Option.map_some]
    apply Works.post_moves
    split
    · exact Works.continueBinding_moves _ _ .refl
    · contradiction
    · exact .refl
  obtain ⟨w, cache, faults, moves⟩ := moved
  obtain ⟨-, faults', -, cache', -⟩ := moves.kept
  exact ⟨rfl, cache'.trans cache, faults'.trans faults⟩

/-! ### A read without response (R87) -/

/-- The works once the port is free and FLASH-PORT stands. -/
def portFaulted (e : Env) (w : Works) : Works := w.freePort.faultEvent e (fun f => { f with flashPort := true })

/-- An event of the fault set hands on idle work, and counts the change and frames dropped alone. -/
theorem faultEvent_counts (e : Env) (f : FaultSet → FaultSet) (w : Works) :
    handsIdle w (w.faultEvent e f)
      ∧ (∀ c, c ≠ .framesDropped → c ≠ .faultChanges → (w.faultEvent e f).counter c = w.counter c)
      ∧ (w.faultEvent e f).report.counters.length = w.report.counters.length := by
  unfold Works.faultEvent
  split
  · exact ⟨.refl w, fun _ _ _ => rfl, rfl⟩
  · have handed := hand_aside e
      (mkFrame e .safety 0 (.fault { seq := (w.report.seq + 1) % 256, set := f w.report.faults })) .plain
      ({ w with report := { w.report with faults := f w.report.faults, seq := (w.report.seq + 1) % 256 } }.bump .faultChanges)
    refine ⟨handed.agenda, fun c dropped other => (handed.counters c dropped).trans ?_,
      handed.size.trans (List.length_modify _ _ _)⟩
    have apart : Counter.faultChanges.index ≠ c.index := by cases c <;> simp_all [Counter.index]
    rw [Works.counter_bump, if_neg (fun h => apart h.1)]
    rfl

theorem portFaulted_counts (e : Env) (w : Works) :
    handsIdle w (portFaulted e w)
      ∧ (∀ c, c ≠ .framesDropped → c ≠ .faultChanges → (portFaulted e w).counter c = w.counter c)
      ∧ (portFaulted e w).report.counters.length = w.report.counters.length := faultEvent_counts e _ w.freePort

theorem portFaulted_jobs (e : Env) (w : Works) : (portFaulted e w).jobs = w.jobs := by
  obtain ⟨l, rep, a, eq⟩ := faultEvent_eq e (fun f => { f with flashPort := true }) w.freePort
  exact (congrArg Works.jobs eq :)

/-- The cache once a read has met no response: a directory read's is invalid (R78). -/
def silencedCache (read : BindRead) (w : Works) : Works :=
  match read with
  | .directory _ => { w with flash := { w.flash with cache := none } }
  | .template _ => w

/-- The record of a job whose binding has failed. -/
def bindingFailed (r : JobRec) : JobRec := { r with binding := r.binding.map fun b => { b with failed := true } }

/-- The only job's binding meets no response: it ends, failed. -/
theorem noResponse_of_binding {w : Works} {r : JobRec} {b : Binding} {n : Nat} {read : BindRead} (e : Env)
    (one : w.jobs.recs = [r]) (channel : r.channel = some n) (binding : r.binding = some b)
    (port : w.flash.port = some (.bind n read true)) :
    w.noResponse e =
      (((silencedCache read (portFaulted e w)).modJob r.tag bindingFailed).endJob e r.tag (if r.staleMark = true then .stale else .bindFail)).post .flashLook := by
  have one' : (silencedCache read (portFaulted e w)).jobs.recs = [r] := by
    cases read <;> exact (congrArg JobTable.recs (portFaulted_jobs e w)).trans one
  have on : (silencedCache read (portFaulted e w)).bindingOn n true = some r :=
    bindingOn_of_one one' channel (by rw [binding]; rfl)
  have ends : (silencedCache read (portFaulted e w)).bindingPortFault e r.tag = _ :=
    endBinding_of_failed (r := bindingFailed r) (b := { b with failed := true }) e (recs_modJob_of_one bindingFailed one')
      (by simp [bindingFailed, binding]) (.inr rfl)
  cases read with
  | template t =>
    simp only [Works.noResponse, Works.templateRead, port, Option.isNone_none]
    simp only [silencedCache, portFaulted] at on ends ⊢
    rw [on]
    exact congrArg (Works.post .flashLook) ends
  | directory block =>
    simp only [Works.noResponse, Works.directoryRead, port, Option.isNone_none, Option.map_none]
    simp only [silencedCache, portFaulted] at on ends ⊢
    rw [on]
    exact congrArg (Works.post .flashLook) ends

/-- What a read without response leaves of a binding's port: FLASH-PORT stands, and a directory read's cache is invalid. -/
theorem noResponse_moves {w : Works} {n : Nat} {read : BindRead} {live : Bool} (e : Env)
    (port : w.flash.port = some (.bind n read live)) : Moves (silencedCache read (portFaulted e w)) (w.noResponse e) := by
  cases read with
  | template t =>
    simp only [Works.noResponse, Works.templateRead, port, Option.isNone_none]
    apply Works.post_moves
    split
    · contradiction
    · exact Works.bindingPortFault_moves _ _ .refl
    · exact .refl
  | directory block =>
    simp only [Works.noResponse, Works.directoryRead, port, Option.isNone_none, Option.map_none]
    apply Works.post_moves
    split
    · contradiction
    · exact Works.bindingPortFault_moves _ _ .refl
    · exact .refl

/-- An audio read without response: FLASH-PORT stands. -/
theorem noResponse_audio_moves {w : Works} {n : Nat} (e : Env) (port : w.flash.port = some (.audio n)) :
    Moves (portFaulted e w) (w.noResponse e) := by
  have read : w.noResponse e = w.audioRead e n none := by simp [Works.noResponse, Works.audioComplete, port]
  rw [read]
  unfold Works.audioRead
  dsimp only
  apply Works.fetchChanged_moves
  split
  · exact Works.streamSettled_moves _ _ .refl
  · split
    · exact Works.failCurrent_moves _ _ (Works.modStream_moves _ _ .refl)
    · exact Works.modStream_moves _ _ .refl

/-- The phrase of a RUNNING stream whose read meets no response fails. -/
theorem noResponse_fails {w : Works} {n : Nat} {r : InFlight} {x : PhraseEntry} (e : Env) (port : w.flash.port = some (.audio n))
    (running : (w.stream n).state = .running) (flight : (w.stream n).inFlight = some r) (current : (w.stream n).current = some x) :
    Moves ((portFaulted e w).modStream n (fun s => { s with inFlight := none }) |>.bump .phraseFailures) (w.noResponse e) := by
  have read : w.noResponse e = w.audioRead e n none := by simp [Works.noResponse, Works.audioComplete, port]
  obtain ⟨l, rep, a, eq⟩ := faultEvent_eq e (fun f => { f with flashPort := true }) w.freePort
  have eq : portFaulted e w = { w.freePort with line := l, report := rep, agenda := a } := eq
  have running : ((portFaulted e w).stream n).state = .running := by
    rw [eq]
    exact running
  have flight : ((portFaulted e w).stream n).inFlight = some r := by
    rw [eq]
    exact flight
  have current : ((portFaulted e w).stream n).current = some x := by
    rw [eq]
    exact current
  have failing : w.audioRead e n none =
      (((portFaulted e w).modStream n (fun s => { s with inFlight := none })).failCurrent n x).fetchChanged n := by
    unfold portFaulted at running flight current ⊢
    simp only [Works.audioRead, Option.isNone_none, running, flight, current]
    simp
  rw [read, failing]
  apply Works.fetchChanged_moves
  generalize (portFaulted e w).modStream n (fun s => { s with inFlight := none }) = v
  unfold Works.failCurrent
  dsimp only
  have failed : Moves (v.bump .phraseFailures) (v.failPhrase n (v.stream n).position x.essential) :=
    Works.post_moves _ (Works.placeFailed_moves _ _ _ .refl)
  split
  · exact Works.modStream_moves _ _ failed
  · split
    · exact Works.modStream_moves _ _ failed
    · exact Works.nextEntry_moves _ failed

/-- Settles O26. -/
theorem bindingReadsGoOnAndFail : Obligations.BindingReadsGoOnAndFail := by
  refine ⟨?template, ⟨?cache, ?directory, ?silent, ?faults⟩, ?spans, ?places⟩
  case template =>
    intro s r n template block data rested one channel binding port healthy items found needs
    have effect_eq := effect_templateRead (node := s.node) (data := data) one channel binding port healthy
    have one' : (s.node.ws.freePort.modJob r.tag (expandedRecord s.env items r)).jobs.recs = [expandedRecord s.env items r r] :=
      recs_modJob_of_one (w := s.node.ws.freePort) _ one
    have goes := continueBinding_of_needs s.env one' rfl channel needs
    rw [expandJob_eq (w := s.node.ws.freePort) _ _ one] at effect_eq
    obtain ⟨fl, settled, waits⟩ := settle_askRead_look
      (w := (s.node.ws.freePort.modJob r.tag (expandedRecord s.env items r)).modJob r.tag (withBinding (lookedUp _ _)))
      s.env n (.directory block) rested
    refine ⟨_, _, exec_of_works (effect_eq.trans (congrArg (fun w : Works => { s.node with ws := w.post .flashLook }) goes)) settled,
      recs_modJob_of_one (r := expandedRecord s.env items r r) (withBinding _) one', rfl, rfl, rfl, waits⟩
  case cache =>
    intro s n block live data port
    obtain ⟨effect_eq, cache, faults⟩ := directoryRead_keeps (node := s.node) (data := data) port
    exact ⟨_, exec_of_works effect_eq rfl, (settle_cache _ _ _).trans cache, (settle_faults _ _ _).trans faults⟩
  case directory =>
    intro s r b n block data rested one channel binding port healthy found bound list
    have effect_eq := effect_directoryRead (data := data) one channel (by rw [binding]; rfl) port healthy
    have one' : (cached block data s.node.ws).jobs.recs = [r] := one
    have one'' : ((cached block data s.node.ws).modJob r.tag (withBinding (lookedUp b found))).jobs.recs
        = [withBinding (lookedUp b found) r] := recs_modJob_of_one _ one'
    refine ⟨?next, ?fails, ?gathers⟩
    case next =>
      intro next needs
      have goes := continueBinding_of_needs s.env one' binding channel needs
      obtain ⟨fl, settled, waits⟩ := settle_askRead_look
        (w := (cached block data s.node.ws).modJob r.tag (withBinding (lookedUp b found))) s.env n (.directory next) rested
      rw [goes] at effect_eq
      exact ⟨_, exec_of_works effect_eq settled, rfl, one'', waits⟩
    case fails =>
      intro none fails wf ending
      have goes := (continueBinding_of_found s.env one' binding none).trans (endBinding_of_failed (r := withBinding (lookedUp b found) r) s.env one'' rfl fails)
      obtain ⟨size, -⟩ := wf
      rw [goes] at effect_eq
      obtain ⟨gone, count, -, reported⟩ := settle_failed (r := withBinding (lookedUp b found) r) (ms := [.flashLook]) s.env settleFuel one''
        (code := if r.staleMark = true then .stale else .bindFail) (by
          show ∀ n ∈ s.node.ws.agenda, idleNote n
          simp [rested]) (by simp [calmNote]) (congrArg (Option.getD · _) ending) (by split <;> rfl) size
      refine ⟨_, exec_of_works effect_eq rfl, rfl, gone, count, fun ⟨line, mask, room, distant⟩ => ?_⟩
      exact reported (by
        show ∀ n ∈ s.node.ws.agenda, calmNote n
        simp [rested]) line mask room distant
    case gathers =>
      intro none fresh good sized two state room idle homed sampled
      obtain ⟨zone, listed, away, home⟩ := homed
      obtain ⟨-, -, -, -, channels, streams, -⟩ := sized
      have line : s.env.onLine := .inr state
      have goes := (continueBinding_of_found s.env one' binding none).trans
        (endBinding_of_bound (r := withBinding (lookedUp b found) r) s.env one'' rfl channel fresh good)
      have one3 : (((cached block data s.node.ws).modJob r.tag (withBinding (lookedUp b found))).modJob r.tag
          (boundRecord (lookedUp b found))).jobs.recs = [boundRecord (lookedUp b found) (withBinding (lookedUp b found) r)] :=
        recs_modJob_of_one (r := withBinding (lookedUp b found) r) _ one''
      obtain ⟨fl, cs, filled, onStream, onChannel⟩ := fillFrom_of_idle
        (w := ((cached block data s.node.ws).modJob r.tag (withBinding (lookedUp b found))).modJob r.tag
          (boundRecord (lookedUp b found))) (list := list) s.env idle (by
            show n < s.node.ws.channels.length
            omega) (by
            show n < s.node.ws.flash.streams.length
            omega) sampled
      generalize filling : ((((cached block data s.node.ws).modJob r.tag (withBinding (lookedUp b found))).modJob r.tag
        (boundRecord (lookedUp b found))).fillFrom s.env n list) = u at filled
      have oneU : u.jobs.recs = [boundRecord (lookedUp b found) (withBinding (lookedUp b found) r)] := by
        rw [filled]
        exact one3
      have begins := beginGathering_of_remote s.env oneU rfl state listed (by rw [filled]; exact away) home
      rw [modGather_of_one _ oneU] at begins
      obtain ⟨g, l, chosen, phase, hold⟩ := chooseTrunk_of_first_round (e := s.env)
        (w := { u with jobs := { u.jobs with recs := [{ boundRecord (lookedUp b found) (withBinding (lookedUp b found) r) with
          gathering := { Gathering.none with
            hold := declaredHold (boundRecord (lookedUp b found) (withBinding (lookedUp b found) r)).duration
              s.env.part.cfg.settings.gather
            grants := freshGrants s.env u (boundRecord (lookedUp b found) (withBinding (lookedUp b found) r))
            phase := .trunk } }] } }) rfl rfl rfl line (by rw [filled]; exact room)
      have ends : (cached block data s.node.ws).continueBinding s.env r.tag = _ :=
        goes.trans ((congrArg (Works.beginGathering s.env r.tag) filling).trans (begins.trans chosen))
      rw [ends] at effect_eq
      have fills := settle_fill (e := s.env) (fuel := settleFuel) (w := { u with
        jobs := { u.jobs with recs := [{ boundRecord (lookedUp b found) (withBinding (lookedUp b found) r) with gathering := g }] }
        line := l, agenda := u.agenda ++ [.flashLook] }) (by simp [boundRecord]) (by
          rw [filled]
          show ∀ n' ∈ s.node.ws.agenda ++ [.testStart n, .flashLook] ++ [.flashLook], fillNote n'
          simp [rested, fillNote])
      have stands : (u.channel n).state = .filling := by
        rw [filled]
        exact onChannel
      have lists : (u.stream n).list = list := by
        rw [filled]
        exact onStream
      exact ⟨_, _, exec_of_works effect_eq rfl, rfl, congrArg JobTable.recs fills.jobs, rfl, rfl, rfl, rfl, rfl, rfl, phase, hold,
        (fills.state n).trans stands, (fills.list n).trans lists⟩
  case silent =>
    intro s r n read rested wf one channel binding ending port
    obtain ⟨b, binding⟩ := Option.isSome_iff_exists.mp binding
    obtain ⟨size, -⟩ := wf
    obtain ⟨idle, counts, sizes⟩ := portFaulted_counts s.env s.node.ws
    have silenced : ((silencedCache read (portFaulted s.env s.node.ws)).modJob r.tag bindingFailed).jobs.recs
        = [bindingFailed r] := by
      refine recs_modJob_of_one bindingFailed ?_
      cases read <;> exact (congrArg JobTable.recs (portFaulted_jobs s.env s.node.ws)).trans one
    have agenda : ∀ n ∈ ((silencedCache read (portFaulted s.env s.node.ws)).modJob r.tag bindingFailed).agenda, idleNote n := by
      cases read <;> exact idle_of_handsIdle rested idle
    have report : ((silencedCache read (portFaulted s.env s.node.ws)).modJob r.tag bindingFailed).report
        = (portFaulted s.env s.node.ws).report := by cases read <;> rfl
    obtain ⟨gone, count, -⟩ := settle_failed (r := bindingFailed r) (ms := [.flashLook]) s.env settleFuel silenced
      (code := if r.staleMark = true then .stale else .bindFail) agenda (by simp [calmNote])
      (congrArg (Option.getD · _) ending) (by split <;> rfl) (by rw [report]; exact sizes.trans size)
    have effect_eq : effect .flashReadNoResponse s.node = { s.node with ws := s.node.ws.noResponse s.env } := rfl
    rw [noResponse_of_binding s.env one channel binding port] at effect_eq
    refine ⟨_, exec_of_works effect_eq rfl, gone, count.trans (congrArg saturate ?_)⟩
    rw [Works.counter, report]
    exact counts .jobsFailed (by decide) (by decide)
  case faults =>
    intro s p port
    have effect_eq : effect .flashReadNoResponse s.node = { s.node with ws := s.node.ws.noResponse s.env } := rfl
    have stands : (portFaulted s.env s.node.ws).report.faults = { s.ws.report.faults with flashPort := true } :=
      faultEvent_faults _ _ _
    refine ⟨_, exec_of_works effect_eq rfl, (settle_faults _ _ _).trans ?_, ?_, ?_⟩
    · cases p with
      | bind n read live =>
        obtain ⟨-, faults, -⟩ := (noResponse_moves s.env port).kept
        refine faults.trans ((?_ : _ = (portFaulted s.env s.node.ws).report.faults).trans stands)
        cases read <;> rfl
      | audio n =>
        obtain ⟨-, faults, -⟩ := (noResponse_audio_moves s.env port).kept
        exact faults.trans stands
    · intro n block live directory
      subst directory
      obtain ⟨-, -, -, cache, -⟩ := (noResponse_moves s.env port).kept
      exact (settle_cache _ _ _).trans cache
    · intro n r x audio wf running flight current essential
      subst audio
      have acts : Acts [.faults] s.node.ws (portFaulted s.env s.node.ws) :=
        .faultEvent (.moves .refl (Works.freePort_moves .refl)) _ _ (by simp)
      have wf' := acts.reportWf wf
      have moves := noResponse_fails s.env port running flight current
      obtain ⟨-, counts, sizes⟩ := portFaulted_counts s.env s.node.ws
      have ⟨size, _, _⟩ := wf'
      have counted : (((portFaulted s.env s.node.ws).modStream n (fun s => { s with inFlight := none })).bump
          .phraseFailures).counter .phraseFailures = saturate (s.ws.counter .phraseFailures) :=
        (counter_bump_same (w := (portFaulted s.env s.node.ws).modStream n (fun s => { s with inFlight := none }))
          .phraseFailures size).trans (congrArg saturate (counts .phraseFailures (by decide) (by decide)))
      have failed : ((((portFaulted s.env s.node.ws).modStream n (fun s => { s with inFlight := none })).bump
          .phraseFailures)).report.wf := (Moves.refl.bump (w := (portFaulted s.env s.node.ws)) .phraseFailures).reportWf wf'
      rw [← counted]
      exact (moves_counter_le moves failed .phraseFailures).trans
        (settles_counter_le (settle_settles _ _ _) (moves.reportWf failed) .phraseFailures)
  case spans =>
    intro w
    refine ⟨fun n template live port => ?_, fun n block live port => ?_, fun n r port flight => ?_⟩
    · rw [Works.portSpan, port]
      rfl
    · rw [Works.portSpan, port]
      rfl
    · simp [Works.portSpan, port, flight, blockAddress]
  case places => exact fun p rest data => ⟨rfl, rfl⟩

end Sys2Proof.Proofs.BindingReads
end


section
/-! The asks and leaves of zones, and their timers (chapter 6): the tests of Table 6-3 in their order (R109), an ask of a
zone with a holder (R114 to R116), the answer of a ZONE-ASK (R108, R118), and the zone that moves on (R119 to R123). -/

namespace Sys2Proof.Proofs.ZoneAsks

open Sys2Proof Sys2Proof.Machine Sys2Proof.Proofs.Effects Sys2Proof.Proofs.Commands Sys2Proof.Proofs.ZoneGrants
open Sys2Proof.Proofs.LevelControl Sys2Proof.Proofs.Reports Sys2Proof.Proofs.StationLine

/-! ### The tests of Table 6-3 (R109) -/

/-- The trunk an ask names is recorded at another node (R109, step 3). -/
def trunkTaken (w : Works) (a : Ask) : Bool :=
  match a.source with
  | .channel _ => false
  | .trunk t => match w.trunk t with | some h => decide (h.node ≠ a.node) | none => false

theorem trunkTaken_iff (w : Works) (a : Ask) :
    trunkTaken w a = true ↔ ∃ t h, a.source = .trunk t ∧ w.trunk t = some h ∧ h.node ≠ a.node := by
  cases source : a.source with
  | channel c => simp [trunkTaken, source]
  | trunk t => cases view : w.trunk t <;> simp [trunkTaken, source, view]

/-- The classes the tests of SAFE, QUIET and line fault are for: OPERATIONAL and INFORMATION. -/
theorem isLow_iff (c : Cls) : c.isLow = true ↔ 2 ≤ c.rank := by
  cases c <;> decide

theorem deniedBy_eq (e : Env) (w : Works) (z : ZoneRec) (a : Ask) :
    deniedBy e w z a =
      if e.part.safe ∧ a.cls.isLow then some .cls else if trunkTaken w a then some .trunk
      else if e.part.state = .quiet ∧ a.cls.isLow then some .quiet else if z.fault ∧ a.cls.isLow then some .fault
      else none := rfl

/-- Settles O32: the four tests in the order of Table 6-3, each reached where those before it do not deny. -/
theorem denialsOfAnAsk : Obligations.DenialsOfAnAsk := by
  intro e w z a low taken
  have lowly : a.cls.isLow = true ↔ low := isLow_iff a.cls
  have elsewhere : trunkTaken w a = true ↔ taken := trunkTaken_iff w a
  rw [deniedBy_eq, ← lowly, ← elsewhere]
  by_cases safe : e.part.safe = true ∧ a.cls.isLow = true
  · simp [safe]
  rw [if_neg safe]
  by_cases trunk : trunkTaken w a = true
  · simp [trunk, safe]
  rw [if_neg trunk]
  by_cases quiet : e.part.state = .quiet ∧ a.cls.isLow = true
  · have proper : e.part.safe = false := by simpa [quiet.2] using safe
    simp [quiet, trunk, proper]
  rw [if_neg quiet]
  by_cases fault : z.fault = true ∧ a.cls.isLow = true
  · have proper : e.part.safe = false := by simpa [fault.2] using safe
    have loud : e.part.state ≠ .quiet := by simpa [fault.2] using quiet
    simp [fault, trunk, proper, loud]
  · simp only [if_neg fault]
    simp [trunk]
    grind

/-! ### Writing a zone record -/

@[simp] theorem setZone_channels (e : Env) (z : ZoneRec) (w : Works) : (w.setZone e z).channels = w.channels := by
  obtain ⟨ls, written⟩ := setZone_eq e z w
  rw [written]

@[simp] theorem setZone_report (e : Env) (z : ZoneRec) (w : Works) : (w.setZone e z).report = w.report := by
  obtain ⟨ls, written⟩ := setZone_eq e z w
  rw [written]

@[simp] theorem setZone_arrivals (e : Env) (z : ZoneRec) (w : Works) :
    (w.setZone e z).zones.arrivals = w.zones.arrivals := by
  obtain ⟨ls, written⟩ := setZone_eq e z w
  rw [written]

/-- A record written with AMP-ON as it was leaves the level entries (R156). -/
theorem setZone_levels_of_same {w : Works} {z o : ZoneRec} (e : Env) (here : w.zone z.zone = some o)
    (same : o.state.ampOn = z.state.ampOn) : (w.setZone e z).levels = w.levels := by
  simp [Works.setZone, here, same, Works.reportAmp]

/-- A record written with AMP-ON where it was off: the level entry of the zone is held (R156). -/
theorem setZone_levels_of_on {w : Works} {z o : ZoneRec} (e : Env) (here : w.zone z.zone = some o)
    (off : o.state.ampOn = false) (on : z.state.ampOn = true) :
    (w.setZone e z).levels = (w.modLevel z.zone LevelEntry.ampAsserted).levels := by
  simp [Works.setZone, here, off, on, Works.reportAmp, Works.modLevel]

theorem level_congr {w v : Works} (h : w.levels = v.levels) (zone : Nat) : w.level zone = v.level zone := by
  simp [Works.level, h]

theorem zone_congr {w v : Works} (h : w.zones.recs = v.zones.recs) (zone : Nat) : w.zone zone = v.zone zone := by
  simp [Works.zone, h]

/-- The level entry of a zone after its change. -/
theorem level_modLevel_here {f : LevelEntry → LevelEntry} (keeps : ∀ l, (f l).zone = l.zone) (zone : Nat) (w : Works) :
    (w.modLevel zone f).level zone = (w.level zone).map f := by
  cases here : w.level zone with
  | none => simp [level_modLevel keeps, here]
  | some l => exact level_modLevel_same keeps here

/-! ### An ask of a zone with a holder (R114 to R116) -/

/-- Where neither of two is before the other, neither is before a third: the best of a list is one no other is before. -/
theorem bestBy_best {α : Type} {better : α → α → Bool} (asymm : ∀ a b, better a b = true → better b a = false)
    (between : ∀ a b c, better a b = false → better b c = false → better a c = false) {l : List α} {x : α}
    (best : bestBy better l = some x) : ∀ y ∈ l, better y x = false := by
  have irrefl (a : α) : better a a = false := by
    by_contra still
    simp only [Bool.not_eq_false] at still
    simp [asymm a a still] at still
  induction l generalizing x with
  | nil => simp [bestBy] at best
  | cons a rest ih =>
    unfold bestBy at best
    cases found : bestBy better rest with
    | none =>
      obtain rfl : a = x := by simpa [found] using best
      simp [LadderRule.bestBy_eq_none found, irrefl]
    | some b =>
      have others := ih found
      by_cases beats : better b a = true
      · obtain rfl : b = x := by simpa [found, beats] using best
        intro y member
        rcases List.mem_cons.mp member with rfl | member
        · exact asymm _ _ beats
        · exact others y member
      · obtain rfl : a = x := by simpa [found, beats] using best
        intro y member
        rcases List.mem_cons.mp member with rfl | member
        · exact irrefl _
        · exact between _ _ _ (others y member) (by simpa using beats)

theorem bestBy_isSome_of_ne_nil {α : Type} {better : α → α → Bool} {l : List α} (some : l ≠ []) :
    ∃ x, bestBy better l = .some x :=
  Option.ne_none_iff_exists'.mp fun none => some (LadderRule.bestBy_eq_none none)

theorem rank_inj {a b : Cls} (same : a.rank = b.rank) : a = b := by
  cases a <;> cases b <;> simp_all [Cls.rank]

theorem better_iff (a b : Cls) : a.better b = true ↔ a.rank < b.rank := decide_eq_true_iff

theorem better_of_le {a b : Cls} (le : b.rank ≤ a.rank) : a.better b = false := by
  simp [Cls.better, le]

theorem worse_iff (a b : Waiter) :
    a.worse b = true ↔ b.cls.rank < a.cls.rank ∨ (a.cls.rank = b.cls.rank ∧ b.order < a.order) := by
  have same : a.cls = b.cls ↔ a.cls.rank = b.cls.rank := ⟨congrArg Cls.rank, rank_inj⟩
  simp [Waiter.worse, Cls.better, same]

theorem not_worse_iff (a b : Waiter) :
    a.worse b = false ↔ a.cls.rank < b.cls.rank ∨ (a.cls.rank = b.cls.rank ∧ a.order ≤ b.order) := by
  rw [← Bool.not_eq_true, worse_iff]
  omega

/-- The entry a full list would give up is worse than every other of it (R116). -/
theorem worst_of_list {l : List Waiter} {x : Waiter} (worst : bestBy Waiter.worse l = some x) :
    ∀ y ∈ l, y.cls.rank < x.cls.rank ∨ (y.cls = x.cls ∧ y.order ≤ x.order) := by
  have best := bestBy_best (better := Waiter.worse)
    (fun a b h => by
      rw [worse_iff] at h
      rw [not_worse_iff]
      omega)
    (fun a b c h k => by
      rw [not_worse_iff] at h k ⊢
      omega) worst
  intro y member
  rcases (not_worse_iff y x).mp (best y member) with lower | ⟨same, older⟩
  · exact .inl lower
  · exact .inr ⟨rank_inj same, older⟩

section
variable {e : Env} {w : Works} {z : ZoneRec} {a : Ask} {h : Holder}

/-- A holder stands in SETTLING and SPEAKING alone (Table 6-2). -/
theorem state_of_held (wf : z.wf) (held : z.holder = some h) : z.state = .settling ∨ z.state = .speaking :=
  wf.1.mpr (by simp [held])

/-- An ask of better class than the holder's (R114). -/
theorem askRecord_of_better (wf : z.wf) (held : z.holder = some h)
    (new : currentVerdict e.now z a.node a.tag = none) (allowed : deniedBy e w z a = none)
    (better : a.cls.rank < h.cls.rank) :
    w.askRecord e z a =
      (if z.state = .speaking then w.speak e { z with holder := some (holderOf e.now a) }
        else w.setZone e { z with holder := some (holderOf e.now a) },
        .granted (z.readyNow e.now) z.fault, [h.revoke z.zone .preempted]) := by
  have beats := (better_iff a.cls h.cls).mpr better
  rcases state_of_held wf held with state | state <;>
    simp [Works.askRecord, new, allowed, state, held, beats]

/-- An ask that does not preempt, with a place on the waiting list (R115). -/
theorem askRecord_of_queued (wf : z.wf) (held : z.holder = some h)
    (new : currentVerdict e.now z a.node a.tag = none) (allowed : deniedBy e w z a = none)
    (worse : h.cls.rank ≤ a.cls.rank) (place : z.waiting.length < waitingCapacity) :
    w.askRecord e z a = ((w.queueAsk e z a).1, (w.queueAsk e z a).2, []) := by
  have beaten := better_of_le worse
  rcases state_of_held wf held with state | state <;>
    simp [Works.askRecord, new, allowed, state, held, beaten, place]

/-- An ask that does not preempt and meets a full waiting list (R116). -/
theorem askRecord_of_full {x : Waiter} (wf : z.wf) (held : z.holder = some h)
    (new : currentVerdict e.now z a.node a.tag = none) (allowed : deniedBy e w z a = none)
    (worse : h.cls.rank ≤ a.cls.rank) (full : z.waiting.length = waitingCapacity)
    (worst : bestBy Waiter.worse z.waiting = some x) :
    w.askRecord e z a =
      if a.cls.better x.cls then
        ((w.queueAsk e { z with waiting := z.waiting.filter (fun y => y ≠ x) } a).1,
          (w.queueAsk e { z with waiting := z.waiting.filter (fun y => y ≠ x) } a).2, [x.revoke z.zone .displaced])
      else (w, .denied .busy, []) := by
  have beaten := better_of_le worse
  rcases state_of_held wf held with state | state <;>
    simp [Works.askRecord, new, allowed, state, held, beaten, full, worst]

/-- A queued ask: the verdict names its place, and the record is written with the longer list (R115). -/
theorem queueAsk_verdict (e : Env) (z : ZoneRec) (a : Ask) (w : Works) :
    (w.queueAsk e z a).2 =
      .queued (positionOf a.node a.tag (placeWaiter (waiterOf e (w.zones.arrivals + 1) a) z.waiting)) := rfl

theorem queueAsk_zone {o : ZoneRec} (e : Env) (a : Ask) (here : w.zone z.zone = some o) :
    (w.queueAsk e z a).1.zone z.zone =
      some { z with waiting := placeWaiter (waiterOf e (w.zones.arrivals + 1) a) z.waiting } :=
  zone_setZone_same (z := { z with waiting := placeWaiter (waiterOf e (w.zones.arrivals + 1) a) z.waiting })
    (w := { w with zones := { w.zones with arrivals := w.zones.arrivals + 1 } }) e here

theorem queueAsk_arrivals (e : Env) (z : ZoneRec) (a : Ask) (w : Works) :
    (w.queueAsk e z a).1.zones.arrivals = w.zones.arrivals + 1 :=
  setZone_arrivals e _ _

end

/-- Settles O34, by the class of the ask and the length of the waiting list; on a full list by the worst entry of it. -/
theorem asksOfHeldZones : Obligations.AsksOfHeldZones := by
  intro e w z a h here wf held new allowed r entry
  refine ⟨fun better => ?preempts, fun worse place => ?queued, fun worse full => ?full⟩
  case preempts =>
    have answer : r = _ := askRecord_of_better wf held new allowed better
    refine ⟨congrArg Prod.snd answer, ?_⟩
    rw [answer]
    by_cases speaking : z.state = .speaking
    · simp only [if_pos speaking]
      exact ⟨_, (speak_speaks (z := { z with holder := some (holderOf e.now a) }) e here rfl).1, rfl, speaking.symm, rfl⟩
    · simp only [if_neg speaking]
      exact ⟨_, zone_setZone_same (z := { z with holder := some (holderOf e.now a) }) e here, rfl, rfl, rfl⟩
  case queued =>
    have answer : r = _ := askRecord_of_queued wf held new allowed worse place
    rw [answer]
    exact ⟨rfl, queueAsk_zone e a here, queueAsk_arrivals e z a w⟩
  case full =>
    have entries : z.waiting ≠ [] := fun none => by
      rw [none] at full
      exact absurd full (by decide)
    obtain ⟨x, worst⟩ := bestBy_isSome_of_ne_nil (better := Waiter.worse) entries
    have answer : r = _ := askRecord_of_full wf held new allowed worse full worst
    refine ⟨x, bestBy_mem _ _ _ worst, worst_of_list worst, fun better => ?_, fun other => ?_⟩
    · rw [answer, if_pos ((better_iff _ _).mpr better)]
      exact ⟨rfl, _, queueAsk_zone (z := { z with waiting := z.waiting.filter (fun y => y ≠ x) }) e a here, rfl⟩
    · rw [answer, better_of_le other]
      rfl

/-! ### The answer of a ZONE-ASK (R108, R118) -/

/-- The ask a ZONE-ASK frame makes (R108). -/
def askOf (f : Frame) (tag trunk duration : Nat) : Ask :=
  { node := f.source, tag := tag, cls := f.cls, source := .trunk trunk, duration := duration }

theorem revoke_nil (e : Env) (w : Works) : w.revoke e [] = w := by
  simp [Works.revoke, Works.postAll, revokeFrames, Works.handAll]

/-- A ZONE-ASK for one zone homed here, whose verdict revokes nothing. -/
theorem askFrame_of_one {e : Env} {w u : Works} {f : Frame} {tag trunk duration zone : Nat} {z : ZoneRec} {v : Verdict}
    (line : e.onLine) (here : w.zone zone = some z)
    (verdict : w.askRecord e z (askOf f tag trunk duration) = (u, v, [])) :
    w.askFrame e f tag trunk duration [zone] =
      u.hand e (mkFrame e f.cls f.source (.zoneAnswer tag [(zone, v)])) .plain := by
  unfold askOf at verdict
  simp [Works.askFrame, StationLine.takesAsks_of_onLine line, firstPlaces, Works.askZones, here, verdict, revoke_nil]

/-- The record of a zone in IDLE once an ask is granted with a settle time (R112). -/
def settling (e : Env) (a : Ask) (z : ZoneRec) : ZoneRec :=
  { z with holder := some (holderOf e.now a), state := .settling, settle := some (e.now + ms e.part.cfg.settings.settle) }

@[simp] theorem taken_agenda (s : State) (rest : List Frame) : (s.taken rest).agenda = s.ws.agenda := rfl

@[simp] theorem taken_tx (s : State) (rest : List Frame) : (s.taken rest).line.tx = s.ws.line.tx := rfl

/-- What ZONE_ASK does with the frame it takes. -/
theorem effect_zoneAsk {s : State} {f : Frame} {rest : List Frame} {tag trunk duration : Nat} {zones : List Nat}
    (head : s.passes f rest) (payload : f.payload = .zoneAsk tag trunk duration zones) :
    effect .zoneAsk s.node = { s.node with ws := (s.taken rest).askFrame s.env f tag trunk duration zones } :=
  effect_of_passes (c := .zoneAsk) rfl head
    (g := onWorks (fun e w => w.askFrame e f tag trunk duration zones)) (by simp [actZoneAsk, payload])

theorem askRecord_of_denied {e : Env} {w : Works} {z : ZoneRec} {a : Ask} {d : Denial}
    (new : currentVerdict e.now z a.node a.tag = none) (denied : deniedBy e w z a = some d) :
    w.askRecord e z a = (w, .denied d, []) := by
  simp [Works.askRecord, new, denied]

/-- Settles O31: the one verdict of the frame by Table 6-3, and its answer in the queue. -/
theorem zoneAskIsAnswered : Obligations.ZoneAskIsAnswered := by
  intro s f rest tag trunk duration zone z rested head payload line room here wf new a answer
  obtain ⟨-, rfl⟩ := s.ws.zone_mem zone z here
  have effect := effect_zoneAsk head payload
  refine ⟨fun allowed idle delayed => ?granted, fun d denied => ?denied⟩
  case granted =>
    have verdict : (s.taken rest).askRecord s.env z a = ((s.taken rest).setZone s.env (settling s.env a z),
        .granted s.env.part.cfg.settings.settle z.fault, []) :=
      askRecord_of_idle_settling new allowed idle delayed
    rw [askFrame_of_one (w := s.taken rest) line here verdict] at effect
    rw [hand_of_room (w := (s.taken rest).setZone s.env (settling s.env a z)) _ _ line (by simpa using room)] at effect
    refine ⟨_, exec_of_effect_rested effect (by simpa using rested), rfl, ?_, ?_, ?_, ?_, ?_, ?_, ?_⟩
    · exact zone_setZone_same (w := s.taken rest) (z := settling s.env a z) s.env here
    · exact fun other ne => zone_setZone_of_ne (w := s.taken rest) (z := settling s.env a z) s.env ne
    · have on : ((s.taken rest).setZone s.env (settling s.env a z)).levels = _ :=
        setZone_levels_of_on s.env here (by simp [idle, ZoneState.ampOn]) rfl
      exact (level_congr on z.zone).trans
        (level_modLevel_here (f := LevelEntry.ampAsserted) (fun _ => rfl) z.zone (s.taken rest))
    · exact congrArg (fun l => queuedAmong (answer (.granted s.env.part.cfg.settings.settle z.fault)) l.tx)
        (setZone_line s.env (settling s.env a z) (s.taken rest))
    · exact setZone_jobs s.env (settling s.env a z) (s.taken rest)
    · exact setZone_channels s.env (settling s.env a z) (s.taken rest)
    · exact setZone_report s.env (settling s.env a z) (s.taken rest)
  case denied =>
    rw [askFrame_of_one (w := s.taken rest) line here
      (askRecord_of_denied (w := s.taken rest) (a := askOf f tag trunk duration) new denied),
      hand_of_room (w := s.taken rest) _ _ line room] at effect
    exact exec_of_effect_rested effect rested

/-! ### The zone moves on (R119, R120) -/

/-- The record of a zone left without holder and waiting entries, with a hold time (R120). -/
def holding (e : Env) (z : ZoneRec) : ZoneRec :=
  { z with holder := none, waiting := [], settle := none, state := .holding
           hold := some (e.now + sec e.part.cfg.settings.hold) }

theorem holding_of_empty {z : ZoneRec} (e : Env) (empty : z.waiting = []) :
    holding e z = { z with holder := none, settle := none, state := .holding
                           hold := some (e.now + sec e.part.cfg.settings.hold) } := by
  rw [holding, empty]

theorem moveOn_of_empty {e : Env} {w : Works} {z : ZoneRec} (old : Cls) (empty : z.waiting = [])
    (held : 0 < e.part.cfg.settings.hold) : w.moveOn e z old = w.setZone e (holding e z) := by
  simp [Works.moveOn, nextHead, empty, Nat.ne_of_gt held, holding]

/-- The record of a zone whose holder's place the head of the waiting list takes (R120). -/
def promote (e : Env) (x : Waiter) (behind : List Waiter) (z : ZoneRec) : ZoneRec :=
  { z with holder := some (holderOf e.now x.ask), waiting := behind }

/-- A promotion asks for another attenuation when the zone speaks and the class changes (R120, R126). -/
theorem moveOn_of_head {e : Env} {w : Works} {z : ZoneRec} {x : Waiter} {behind : List Waiter} (old : Cls)
    (list : z.waiting = x :: behind) (passes : deniedBy e w z x.ask = none) :
    ∃ ls, w.moveOn e z old =
      Works.tell e x z.zone (.granted (z.readyNow e.now) z.fault)
        { w.setZone e (promote e x behind z) with levels := ls } := by
  by_cases louder : z.state = .speaking ∧ x.cls ≠ old
  · refine ⟨((w.setZone e (promote e x behind z)).askLevel z.zone x.cls).levels, ?_⟩
    simp only [Works.moveOn, list, nextHead, passes, if_pos louder, List.foldl_nil]
    rfl
  · refine ⟨(w.setZone e (promote e x behind z)).levels, ?_⟩
    simp only [Works.moveOn, list, nextHead, passes, if_neg louder, List.foldl_nil]
    rfl

theorem tell_of_remote {e : Env} {w : Works} {x : Waiter} (zone : Nat) (v : Verdict) (line : e.onLine) (room : w.room)
    (remote : x.node ≠ e.part.node) :
    w.tell e x zone v = w.queueFrame (mkFrame e x.cls x.node (.zoneAnswer x.tag [(zone, v)])) .plain := by
  rw [Works.tell, if_neg remote, hand_of_room _ _ line room]

/-- What ZONE_LEAVE does with a frame of the holder's for one zone. -/
theorem effect_zoneLeave_of_holder {s : State} {f : Frame} {rest : List Frame} {tag zone : Nat} {z : ZoneRec} {h : Holder}
    (head : s.passes f rest) (payload : f.payload = .zoneLeave tag [zone]) (line : s.env.onLine)
    (here : s.ws.zone zone = some z) (held : z.holder = some h) (node : h.node = f.source) (job : h.tag = tag) :
    effect .zoneLeave s.node
      = { s.node with ws := (s.taken rest).moveOn s.env { z with holder := none } h.cls } := by
  rw [effect_of_passes (c := .zoneLeave) rfl head (g := onWorks (fun e w => w.leaveFrame e f tag [zone]))
    (by simp [actZoneLeave, payload])]
  have stays : (s.taken rest).zone zone = some z := here
  simp [onWorks, Works.leaveFrame, StationLine.takesAsks_of_onLine line, Works.leaveZones, Works.leaveOne, stays, held,
    node, job]

/-- Settles O35: a leave of the holder's is the zone moving on, to HOLDING or to the head of its waiting list. -/
theorem leaveMovesTheZoneOn : Obligations.LeaveMovesTheZoneOn := by
  intro s f rest tag zone z h rested head payload line here wf held node job
  obtain ⟨-, rfl⟩ := s.ws.zone_mem zone z here
  have effect := effect_zoneLeave_of_holder head payload line here held node job
  refine ⟨fun empty timed => ?empty, fun x behind list passes remote room => ?promoted⟩
  case empty =>
    rw [moveOn_of_empty h.cls (z := { z with holder := none }) empty timed] at effect
    refine ⟨_, exec_of_effect_rested effect (by simpa using rested), rfl, ?_, ?_, ?_⟩
    · have written := zone_setZone_same (w := s.taken rest) (z := holding s.env { z with holder := none }) s.env here
      exact written.trans (congrArg some (holding_of_empty s.env empty))
    · exact (congrArg Line.tx (setZone_line s.env (holding s.env { z with holder := none }) (s.taken rest))).trans rfl
    · exact setZone_jobs s.env (holding s.env { z with holder := none }) (s.taken rest)
  case promoted =>
    have allowed : deniedBy s.env (s.taken rest) { z with holder := none } x.ask = none :=
      (deniedBy_congr s.env x.ask rfl rfl).trans passes
    obtain ⟨ls, moved⟩ := moveOn_of_head h.cls (z := { z with holder := none }) list allowed
    have queue := setZone_line s.env (promote s.env x behind { z with holder := none }) (s.taken rest)
    rw [moved, tell_of_remote _ _ line (by simpa [queue] using room) remote] at effect
    refine ⟨_, exec_of_effect_rested effect (by simpa using rested), rfl, ?_, ?_⟩
    · exact zone_setZone_same (w := s.taken rest) (z := promote s.env x behind { z with holder := none }) s.env here
    · exact (congrArg (fun l => queuedAmong _ l.tx) queue).trans rfl

/-! ### The timers of a zone (R117, R122, R123) -/

/-- One revocation of another node's, in a frame of its own (R124, R189). -/
theorem revoke_of_remote {e : Env} {w : Works} {r : Revocation} (line : e.onLine) (room : w.room)
    (remote : r.node ≠ e.part.node) :
    w.revoke e [r] = w.queueFrame (mkFrame e r.cls r.node (.zoneRevoke [r.entry])) .plain := by
  rw [← hand_of_room _ _ line room]
  simp [Works.revoke, Works.postAll, remote, revokeFrames, insertAsc, revokeFramesTo, sortBy, sortBy.insertFront, chunks16,
    bestClass, bestBy, Works.handAll]

theorem settleExpires_of_settling {w : Works} {zone : Nat} {z : ZoneRec} (e : Env) (here : w.zone zone = some z)
    (state : z.state = .settling) (timer : z.settle.isSome = true) : w.settleExpires e zone = w.speak e z := by
  simp [Works.settleExpires, here, state, timer]

/-- The record of a zone that speaks (R117). -/
def speaking (z : ZoneRec) : ZoneRec := { z with state := .speaking, settle := none, hold := none }

/-- SETTLE_TIMER_EXPIRY on a zone in SETTLING writes its record in SPEAKING and asks the attenuation. -/
theorem exec_settleTimerExpiry {s : State} {zone : Nat} {z : ZoneRec} {h : Holder} (rested : s.rested)
    (here : s.ws.zone zone = some z) (state : z.state = .settling) (timer : z.settle.isSome = true)
    (held : z.holder = some h) :
    exec (.settleTimerExpiry zone) s
      = .next (s.withWs ((s.ws.setZone s.env (speaking z)).askLevel z.zone h.cls)) := by
  have effect : effect (.settleTimerExpiry zone) s.node
      = { s.node with ws := (s.ws.setZone s.env (speaking z)).askLevel z.zone h.cls } := by
    change onWorks (fun e w => w.settleExpires e zone) s.node = _
    rw [onWorks, settleExpires_of_settling s.env here state timer, speak_of_holder s.env held]
    rfl
  exact exec_of_effect_rested effect ((setZone_agenda s.env (speaking z) s.ws).trans rested)

/-- The level entries of a zone that goes from SETTLING to SPEAKING: the attenuation of the class, AMP-ON standing. -/
theorem level_of_speaking {w : Works} {z : ZoneRec} (e : Env) (c : Cls) (here : w.zone z.zone = some z)
    (state : z.state = .settling) :
    ((w.setZone e (speaking z)).askLevel z.zone c).levels = (w.askLevel z.zone c).levels := by
  have same := setZone_levels_of_same (z := speaking z) e here (by simp [state, speaking, ZoneState.ampOn])
  simp [Works.askLevel, Works.modLevel, same]

/-- EXPIRY_TIMER_EXPIRY at a remote holder with nobody waiting: it is revoked, and the zone enters HOLDING. -/
theorem effect_expiryTimerExpiry {s : State} {zone : Nat} {z : ZoneRec} {h : Holder} (line : s.env.onLine)
    (room : s.ws.room) (here : s.ws.zone zone = some z) (held : z.holder = some h) (remote : h.node ≠ s.env.part.node)
    (empty : z.waiting = []) (timed : 0 < s.env.part.cfg.settings.hold) :
    effect (.expiryTimerExpiry zone) s.node
      = { s.node with ws := (s.ws.queueFrame (mkFrame s.env h.cls h.node
            (.zoneRevoke [{ zone := zone, tag := h.tag, reason := .expired }])) .plain).setZone s.env (holding s.env z) } := by
  change onWorks (fun e w => w.holderExpires e zone) s.node = _
  simp only [onWorks, Works.holderExpires, here, held]
  rw [revoke_of_remote line room (r := h.revoke zone .expired) remote,
    moveOn_of_empty _ (z := { z with holder := none }) empty timed]
  rfl

/-- The record of a zone without one of its waiting entries (R123). -/
def withoutWaiter (node tag : Nat) (z : ZoneRec) : ZoneRec :=
  { z with waiting := z.waiting.filter (fun y => !(y.node = node && y.tag = tag)) }

/-- WAIT_TIMER_EXPIRY at a remote waiting entry: it is removed, and revoked. -/
theorem effect_waitTimerExpiry {s : State} {zone : Nat} {z : ZoneRec} {x : Waiter} (line : s.env.onLine)
    (room : s.ws.room) (here : s.ws.zone zone = some z)
    (entry : z.waiting.find? (fun y => y.node = x.node && y.tag = x.tag) = some x) (remote : x.node ≠ s.env.part.node) :
    effect (.waitTimerExpiry zone x.node x.tag) s.node
      = { s.node with ws := (s.ws.setZone s.env (withoutWaiter x.node x.tag z)).queueFrame (mkFrame s.env x.cls x.node
            (.zoneRevoke [{ zone := zone, tag := x.tag, reason := .waitExpired }])) .plain } := by
  change onWorks (fun e w => w.waitExpires e zone x.node x.tag) s.node = _
  simp only [onWorks, Works.waitExpires, here, entry]
  exact congrArg (fun v => { s.node with ws := v }) (revoke_of_remote
    (w := s.ws.setZone s.env (withoutWaiter x.node x.tag z)) line (by simpa using room)
    (r := x.revoke zone .waitExpired) remote)

/-- Settles O36, timer by timer. -/
theorem settleExpiryAndWaitTimersOfAZone : Obligations.SettleExpiryAndWaitTimersOfAZone := by
  refine ⟨?settle, fun s zone z rested line room here wf => ⟨?expiry, ?wait⟩⟩
  case settle =>
    intro s zone z h rested here state timer held
    obtain ⟨-, rfl⟩ := s.ws.zone_mem zone z here
    have levels := level_of_speaking s.env h.cls here state
    refine ⟨_, exec_settleTimerExpiry rested here state timer held, ?_, ?_, fun other ne => ⟨?_, ?_⟩, rfl, ?_, ?_, ?_, ?_⟩
    · exact zone_setZone_same (z := speaking z) s.env here
    · exact (level_congr levels z.zone).trans (level_modLevel_here
        (f := fun l => { l with attenuation := l.attenuationFor h.cls }) (fun _ => rfl) z.zone s.ws)
    · exact zone_setZone_of_ne (z := speaking z) s.env ne
    · exact (level_congr levels other).trans (level_modLevel_of_ne
        (f := fun l => { l with attenuation := l.attenuationFor h.cls }) (fun _ => rfl) s.ws ne)
    · exact setZone_jobs s.env (speaking z) s.ws
    · exact setZone_channels s.env (speaking z) s.ws
    · exact setZone_line s.env (speaking z) s.ws
    · exact setZone_report s.env (speaking z) s.ws
  case expiry =>
    intro h held remote empty timed
    obtain ⟨-, rfl⟩ := s.ws.zone_mem zone z here
    refine ⟨_, exec_of_effect_rested (effect_expiryTimerExpiry line room here held remote empty timed)
      (by simpa using rested), rfl, ?_, ?_, ?_⟩
    · exact setZone_jobs s.env (holding s.env z) _
    · exact (zone_setZone_same (w := s.ws.queueFrame _ _) (z := holding s.env z) s.env here).trans (congrArg some (holding_of_empty s.env empty))
    · exact (congrArg Line.tx (setZone_line s.env (holding s.env z) _)).trans rfl
  case wait =>
    intro x entry remote
    obtain ⟨-, rfl⟩ := s.ws.zone_mem zone z here
    refine ⟨_, exec_of_effect_rested (effect_waitTimerExpiry line room here entry remote) (by simpa using rested),
      rfl, ?_, ?_, ?_⟩
    · exact setZone_jobs s.env (withoutWaiter x.node x.tag z) s.ws
    · exact zone_setZone_same (z := withoutWaiter x.node x.tag z) s.env here
    · exact (congrArg (fun l => queuedAmong _ l.tx) (setZone_line s.env (withoutWaiter x.node x.tag z) s.ws)).trans rfl

end Sys2Proof.Proofs.ZoneAsks
end


section
/-! The fault set follows its tables: ZONE-LINE the line-fault flags of the zone records (R125), SENSOR the level entries
in FAULT (R158, R159), each event of the set with its own sequence number (R180, R182). -/

namespace Sys2Proof.Proofs.FaultSetFollows

open Sys2Proof Sys2Proof.Machine Sys2Proof.Proofs.Effects Sys2Proof.Proofs.Commands Sys2Proof.Proofs.LevelControl

/-! ### A set of zone numbers that follows a table -/

/-- A zone number placed in a set or removed from it. -/
def mark (set : List Nat) (entry : Nat × Bool) : List Nat :=
  if entry.2 then insertAsc entry.1 set else set.filter (· ≠ entry.1)

theorem mem_insertAsc (n m : Nat) (l : List Nat) : m ∈ insertAsc n l ↔ m = n ∨ m ∈ l := by
  induction l with
  | nil => simp [insertAsc]
  | cons a rest ih =>
    unfold insertAsc
    split
    · simp
    · split
      · next same =>
          subst same
          simp
      · simp only [List.mem_cons, ih]
        tauto

theorem mem_mark_self (set : List Nat) (zone : Nat) (on : Bool) : zone ∈ mark set (zone, on) ↔ on = true := by
  cases on <;> simp [mark, mem_insertAsc]

theorem mem_mark_of_ne {set : List Nat} {entry : Nat × Bool} {zone : Nat} (ne : zone ≠ entry.1) :
    zone ∈ mark set entry ↔ zone ∈ set := by
  obtain ⟨other, on⟩ := entry
  cases on <;> simp_all [mark, mem_insertAsc]

/-- Entries of other zones leave a zone in the set or out of it. -/
theorem mem_marks_of_not_listed {entries : List (Nat × Bool)} {zone : Nat} (absent : zone ∉ entries.map (·.1))
    (set : List Nat) : zone ∈ entries.foldl mark set ↔ zone ∈ set := by
  induction entries generalizing set with
  | nil => exact Iff.rfl
  | cons entry rest ih =>
    simp only [List.map_cons, List.mem_cons, not_or] at absent
    exact (ih absent.2 _).trans (mem_mark_of_ne absent.1)

/-- Where no zone is listed twice, the set ends with each listed zone as its entry says. -/
theorem mem_marks_of_listed {entries : List (Nat × Bool)} (once : (entries.map (·.1)).Nodup) (set : List Nat)
    {zone : Nat} {on : Bool} (listed : (zone, on) ∈ entries) : zone ∈ entries.foldl mark set ↔ on = true := by
  induction entries generalizing set with
  | nil => simp at listed
  | cons entry rest ih =>
    obtain ⟨fresh, others⟩ := List.nodup_cons.mp once
    rcases List.mem_cons.mp listed with rfl | later
    · exact (mem_marks_of_not_listed fresh _).trans (mem_mark_self set zone on)
    · exact ih others _ later

theorem zoneLine_followLines (recs : List ZoneRec) (f : FaultSet) :
    (recs.foldl FaultSet.followLine f).zoneLine = (recs.map (fun z => (z.zone, z.fault))).foldl mark f.zoneLine := by
  induction recs generalizing f with
  | nil => rfl
  | cons z rest ih =>
    have one : (f.followLine z).zoneLine = mark f.zoneLine (z.zone, z.fault) := by
      cases fault : z.fault <;> simp [FaultSet.followLine, mark, fault, FaultSet.placeZoneLine, FaultSet.removeZoneLine]
    simp only [List.foldl_cons, List.map_cons, ih, one]

theorem sensor_followSensors (ls : List LevelEntry) (f : FaultSet) :
    (ls.foldl FaultSet.followSensor f).sensor = (ls.map (fun l => (l.zone, decide (l.sensor = .fault)))).foldl mark f.sensor := by
  induction ls generalizing f with
  | nil => rfl
  | cons l rest ih =>
    have one : (f.followSensor l).sensor = mark f.sensor (l.zone, decide (l.sensor = .fault)) := by
      by_cases fault : l.sensor = .fault <;>
        simp [FaultSet.followSensor, mark, fault, FaultSet.placeSensor, FaultSet.removeSensor]
    simp only [List.foldl_cons, List.map_cons, ih, one]

/-- ZONE-LINE of a record, once every record has been followed (R125). -/
theorem mem_zoneLine_of_followed {recs : List ZoneRec} (once : (recs.map (·.zone)).Nodup) (f : FaultSet) {z : ZoneRec}
    (member : z ∈ recs) : z.zone ∈ (recs.foldl FaultSet.followLine f).zoneLine ↔ z.fault = true := by
  rw [zoneLine_followLines]
  exact mem_marks_of_listed (by simpa [Function.comp_def] using once) _ (List.mem_map_of_mem member)

/-- SENSOR of a level entry, once every entry has been followed (R158, R159). -/
theorem mem_sensor_of_followed {ls : List LevelEntry} (once : (ls.map (·.zone)).Nodup) (f : FaultSet) {l : LevelEntry}
    (member : l ∈ ls) : l.zone ∈ (ls.foldl FaultSet.followSensor f).sensor ↔ l.sensor = .fault := by
  rw [sensor_followSensors]
  have once : ((ls.map (fun l => (l.zone, decide (l.sensor = .fault)))).map (·.1)).Nodup := by
    simpa [Function.comp_def] using once
  exact (mem_marks_of_listed once _ (List.mem_map_of_mem member)).trans decide_eq_true_iff

/-! ### An event of the fault set (R180, R182) -/

/-- With a place in the queue a frame handed over makes the queue one longer at most; where no block waits for word of it,
nobody is told. -/
theorem hand_in_room {w : Works} {f : Frame} (e : Env) (p : TxPurpose) (untold : Frame.untold f) (room : w.room) :
    (w.hand e f p).line.tx.length ≤ w.line.tx.length + 1 ∧ (w.hand e f p).agenda = w.agenda
      ∧ (w.hand e f p).report.seq = w.report.seq ∧ (w.hand e f p).levels = w.levels := by
  have refused : (w.unsent f p).line = w.line ∧ (w.unsent f p).report.seq = w.report.seq
      ∧ (w.unsent f p).levels = w.levels := by
    unfold Works.unsent
    repeat' split
    all_goals exact ⟨rfl, rfl, rfl⟩
  unfold Works.hand
  split
  · simp
  · split
    · simp [refused, unsent_agenda p w untold]
    · exact ⟨(enqueueFrame_length _ _).le, rfl, rfl, rfl⟩

/-- One event with a place in the queue: at most one frame more, and no work for another block. -/
theorem faultEvent_in_room {w : Works} (e : Env) (f : FaultSet → FaultSet) (room : w.room) :
    (w.faultEvent e f).line.tx.length ≤ w.line.tx.length + 1 ∧ (w.faultEvent e f).agenda = w.agenda := by
  unfold Works.faultEvent
  split
  · simp
  · obtain ⟨queue, agenda, -, -⟩ := hand_in_room e .plain (w := Works.bump .faultChanges { w with report := { w.report with
      faults := f w.report.faults, seq := (w.report.seq + 1) % 256 } })
      (f := mkFrame e .safety 0 (.fault { seq := (w.report.seq + 1) % 256, set := f w.report.faults })) trivial room
    exact ⟨queue, agenda⟩

@[simp] theorem hand_seq (e : Env) (f : Frame) (p : TxPurpose) (w : Works) : (w.hand e f p).report.seq = w.report.seq := by
  unfold Works.hand Works.unsent
  repeat' split
  all_goals rfl

/-- The fault sequence number advances by one exactly at an event that changes the set (R182). -/
theorem faultEvent_seq (e : Env) (f : FaultSet → FaultSet) (w : Works) :
    (w.faultEvent e f).report.seq =
      if (w.faultEvent e f).report.faults = w.report.faults then w.report.seq else (w.report.seq + 1) % 256 := by
  rw [faultEvent_faults]
  by_cases same : f w.report.faults = w.report.faults
  · rw [faultEvent_of_same same, if_pos same]
  · simp only [Works.faultEvent, if_neg same, hand_seq]
    rfl

/-! ### Line faults (R125) -/

/-- The environment with one line-fault input changed. -/
def withLineFault (output : Nat) (level : Bool) (e : Env) : Env :=
  { e with pins := { e.pins with zflt := e.pins.zflt.set output level } }

/-- The works whose zone records follow the inputs. -/
def followingLines (e : Env) (w : Works) : Works :=
  { w with zones := { w.zones with recs := followLineFaults e.pins.zflt w.zones.recs } }

theorem effect_lineFault (output : Nat) (level : Bool) (n : Node) :
    effect (.lineFaultInputChange output level) n =
      ⟨withLineFault output level n.env,
        (followingLines (withLineFault output level n.env) n.ws).faultEvent (withLineFault output level n.env)
          (fun f => (followLineFaults (withLineFault output level n.env).pins.zflt n.ws.zones.recs).foldl
            FaultSet.followLine f)⟩ := rfl

/-- Settles O38: the flags as they are computed, the fault set by the fold over the records. -/
theorem lineFaultFollowsTheInput : Obligations.LineFaultFollowsTheInput := by
  intro s output level rested room once
  have effect := effect_lineFault output level s.node
  generalize env : withLineFault output level s.node.env = e at effect
  generalize change : (fun f => (followLineFaults e.pins.zflt s.node.ws.zones.recs).foldl FaultSet.followLine f) = follow
    at effect
  have quiet := (faultEvent_in_room (w := followingLines e s.ws) e follow room).2
  have faults := faultEvent_faults e follow (followingLines e s.ws)
  obtain ⟨line, report, agenda, changed⟩ := faultEvent_eq e follow (followingLines e s.ws)
  refine ⟨_, exec_of_effect_rested effect (quiet.trans rested), env.symm, ?_, ?_, ?_, ?_, ?_⟩
  · exact (congrArg (fun w => w.zones.recs) changed).trans rfl
  · intro z member
    have recs : (Works.faultEvent e follow (followingLines e s.ws)).zones.recs =
        followLineFaults e.pins.zflt s.ws.zones.recs := (congrArg (fun w => w.zones.recs) changed).trans rfl
    have member : z ∈ followLineFaults e.pins.zflt s.ws.zones.recs := recs ▸ member
    dsimp only [State.ws]
    rw [faults, ← change]
    exact mem_zoneLine_of_followed (by simpa [followLineFaults, Function.comp_def] using once) _ member
  · exact (congrArg Works.jobs changed).trans rfl
  · exact (congrArg Works.levels changed).trans rfl
  · exact (congrArg Works.channels changed).trans rfl

/-! ### Readings and silence (R154, R155) -/

theorem good_place (r : Nat) (l : LevelEntry) : (l.good r).zone = l.zone ∧ (l.good r).reading = l.reading := by
  unfold LevelEntry.good
  split <;> exact ⟨rfl, rfl⟩

theorem faulted_place (l : LevelEntry) : l.faulted.zone = l.zone ∧ l.faulted.reading = l.reading := by
  unfold LevelEntry.faulted
  split <;> exact ⟨rfl, rfl⟩

theorem reads_place (now : Instant) (result : Option Nat) (l : LevelEntry) :
    (l.reads now result).zone = l.zone ∧ (l.reads now result).reading = l.reading := by
  cases result with
  | none => exact ⟨rfl, rfl⟩
  | some r =>
    simp only [LevelEntry.reads]
    split
    · exact good_place r _
    · exact faulted_place _

/-- SENSOR stands in the fault set for exactly the entries in FAULT. -/
def sensorsFollow (w : Works) : Prop := ∀ l ∈ w.levels, l.zone ∈ w.report.faults.sensor ↔ l.sensor = .fault

/-- What replacing the level entries leaves, with a place in the queue: the entries, the line and the reports alone
change, and the queue grows by one frame at most. -/
theorem setLevels_in_room {w : Works} (e : Env) (ls : List LevelEntry) (room : w.room) :
    ∃ line report, w.setLevels e ls = { w with levels := ls, line := line, report := report }
      ∧ line.tx.length ≤ w.line.tx.length + 1 := by
  obtain ⟨queue, quiet⟩ := faultEvent_in_room (w := { w with levels := ls }) e (fun f => ls.foldl FaultSet.followSensor f) room
  obtain ⟨line, report, agenda, eq⟩ := faultEvent_eq e (fun f => ls.foldl FaultSet.followSensor f) { w with levels := ls }
  rw [eq] at queue quiet
  refine ⟨line, report, ?_, queue⟩
  rw [Works.setLevels, eq]
  exact congrArg (fun a => { w with levels := ls, line := line, report := report, agenda := a }) quiet

theorem setLevels_follows {w : Works} {ls : List LevelEntry} (e : Env) (once : (ls.map (·.zone)).Nodup) (room : w.room) :
    sensorsFollow (w.setLevels e ls) := by
  have faults := faultEvent_faults e (fun f => ls.foldl FaultSet.followSensor f) { w with levels := ls }
  obtain ⟨line, report, eq, -⟩ := setLevels_in_room e ls room
  intro l member
  rw [eq] at member
  rw [Works.setLevels, faults]
  exact mem_sensor_of_followed once _ member

/-- The level entries after the reading of one position (R154). -/
def readAt (now : Instant) (position : Nat) (result : Option Nat) (l : LevelEntry) : LevelEntry :=
  if l.reading = position then l.reads now result else l

/-- A level entry after the readings of a cycle from one position on. -/
def readFromOn (now : Instant) (position : Nat) (results : List (Option Nat)) (l : LevelEntry) : LevelEntry :=
  if position ≤ l.reading then l.reads now (results[l.reading - position]?).join else l

theorem readFromOn_nil (now : Instant) (position : Nat) (l : LevelEntry) : readFromOn now position [] l = l := by
  simp [readFromOn, LevelEntry.reads]

/-- An entry takes the reading of its position, and no other. -/
theorem readFromOn_cons (now : Instant) (position : Nat) (result : Option Nat) (rest : List (Option Nat)) (l : LevelEntry) :
    readFromOn now (position + 1) rest (readAt now position result l) = readFromOn now position (result :: rest) l := by
  rcases lt_trichotomy l.reading position with before | here | behind
  · have other : l.reading ≠ position := before.ne
    simp [readFromOn, readAt, other, Nat.not_le.mpr before, show ¬ position + 1 ≤ l.reading by omega]
  · simp [readFromOn, readAt, here]
  · have next : l.reading - position = l.reading - (position + 1) + 1 := by omega
    have other : l.reading ≠ position := behind.ne'
    simp [readFromOn, readAt, other, behind.le, Nat.succ_le_of_lt behind, next]

theorem readAt_zones (now : Instant) (position : Nat) (result : Option Nat) (ls : List LevelEntry) :
    (ls.map (readAt now position result)).map (·.zone) = ls.map (·.zone) := by
  have keeps (l : LevelEntry) : (readAt now position result l).zone = l.zone := by
    unfold readAt
    split
    · exact (reads_place now result l).1
    · rfl
  simp [Function.comp_def, keeps]

/-- What readings leave, with a place in the queue for each: level entries, line and reports alone change, and SENSOR
follows once one position has been read. -/
theorem readFrom_in_room {w : Works} (e : Env) (position : Nat) (results : List (Option Nat))
    (once : (w.levels.map (·.zone)).Nodup) (room : w.line.tx.length + results.length ≤ txCapacity) :
    ∃ line report, w.readFrom e position results =
        { w with levels := w.levels.map (readFromOn e.now position results), line := line, report := report }
      ∧ (sensorsFollow w ∨ results ≠ [] → sensorsFollow (w.readFrom e position results)) := by
  induction results generalizing w position with
  | nil =>
    have same : w.levels.map (readFromOn e.now position []) = w.levels := by
      rw [funext (readFromOn_nil e.now position)]
      exact List.map_id _
    refine ⟨w.line, w.report, ?_, ?_⟩
    · rw [same]
      rfl
    · simp [Works.readFrom]
  | cons result rest ih =>
    have place : w.room := by
      simp only [List.length_cons] at room
      change _ < _
      omega
    let ls := w.levels.map (readAt e.now position result)
    have once' : (ls.map (·.zone)).Nodup := by rw [readAt_zones]; exact once
    have follows := setLevels_follows e once' place
    obtain ⟨line, report, eq, queue⟩ := setLevels_in_room e ls place
    have read : w.readPosition e position result = w.setLevels e ls := rfl
    obtain ⟨line', report', eq', follows'⟩ := ih (w := w.setLevels e ls) (position + 1) (by rw [eq]; exact once') (by
      rw [eq]
      simp only [List.length_cons] at room
      dsimp only
      omega)
    rw [Works.readFrom, read]
    refine ⟨line', report', eq'.trans ?_, fun _ => follows' (.inl follows)⟩
    rw [eq]
    simp [ls, List.map_map, Function.comp_def, readFromOn_cons]

/-- Settles O47: the cycle as eight events, the silence timer as one. -/
theorem readingsAndSilenceReachTheLevels : Obligations.ReadingsAndSilenceReachTheLevels := by
  refine ⟨fun s rested room state once => ⟨fun readings eight => ?cycle, fun zone => ?silence⟩, fun e w position result => ?number⟩
  case cycle =>
    obtain ⟨line, report, eq, follows⟩ := readFrom_in_room (w := s.ws) s.env 0 readings once (by omega)
    have effect : effect (.ambientReadingCycle readings) s.node = { s.node with ws := s.ws.readFrom s.env 0 readings } :=
      if_neg state
    have follows := follows (.inr (by rintro rfl; simp at eight))
    refine ⟨_, exec_of_effect_rested effect (by rw [eq]; exact rested), ⟨follows, rfl, ?_, ?_, ?_⟩, ?_⟩
    all_goals dsimp only [State.ws]
    all_goals rw [eq]
    refine List.map_congr_left fun l _ => ?_
    rw [readFromOn, if_pos (Nat.zero_le _), Nat.sub_zero]
    cases (readings[l.reading]?).join <;> rfl
  case silence =>
    let ls := s.ws.levels.map (fun l => if l.zone = zone then l.silent s.env.now else l)
    have keeps (l : LevelEntry) : (if l.zone = zone then l.silent s.env.now else l).zone = l.zone := by
      split
      · exact (faulted_place l).1
      · rfl
    have place : s.ws.room := by
      change _ < _
      omega
    obtain ⟨line, report, eq, -⟩ := setLevels_in_room s.env ls place
    have effect : effect (.silenceTimerExpiry zone) s.node = { s.node with ws := s.ws.setLevels s.env ls } := if_neg state
    have follows := setLevels_follows (ls := ls) s.env (by simpa [ls, Function.comp_def, keeps] using once) place
    refine ⟨_, exec_of_effect_rested effect (by rw [eq]; exact rested), ⟨follows, rfl, ?_, ?_, ?_⟩, ?_⟩
    all_goals dsimp only [State.ws]
    all_goals rw [eq]
    rfl
  case number => exact faultEvent_seq e _ _

end Sys2Proof.Proofs.FaultSetFollows
end


section
/-! The trunk view, the seizing of a trunk and the zone round that begins with it (R131, R132, R135 to R137, R140). -/

namespace Sys2Proof.Proofs.TrunksAndRounds

open Sys2Proof Sys2Proof.Machine Sys2Proof.Proofs.Effects Sys2Proof.Proofs.Commands Sys2Proof.Proofs.Reports
open Sys2Proof.Proofs.Filling

/-! ### The trunk view (R131, R132) -/

/-- The waits that end when a view entry becomes FREE leave the view. -/
@[simp] theorem viewFreed_trunks (e : Env) (w : Works) : (w.viewFreed e).trunks = w.trunks := by
  obtain ⟨trunks, -⟩ := (Works.viewFreed_moves (w0 := w) e .refl).kept
  exact trunks

theorem trunk_setTrunk_of_ne {w : Works} {t other : Nat} (h : Option TrunkHold) (ne : other ≠ t) :
    (w.setTrunk t h).trunk other = w.trunk other := by
  simp [Works.trunk, Works.setTrunk, List.getElem?_set_ne ne.symm]

theorem trunk_setTrunk_none (w : Works) (t : Nat) : (w.setTrunk t none).trunk t = none := by
  simp only [Works.trunk, Works.setTrunk, List.getElem?_set_self']
  cases w.trunks[t]? <;> rfl

theorem trunk_congr {w v : Works} (h : v.trunks = w.trunks) (t : Nat) : v.trunk t = w.trunk t := by
  simp [Works.trunk, h]

/-- A SEIZE takes a FREE entry and is void on a HELD one (R131). -/
theorem applySeize_eq (e : Env) (source trunk tag hold : Nat) (w : Works) :
    w.applySeize e source trunk tag hold =
      { w with trunks := if w.trunk trunk = none then
          w.trunks.set trunk (some { node := source, tag := tag, expiry := e.now + sec (hold + 5) }) else w.trunks } := by
  unfold Works.applySeize
  cases view : w.trunk trunk <;> simp [Works.setTrunk]

/-- A FREE frees the entry its sender holds (R131). -/
theorem applyFree_trunks (e : Env) (source trunk : Nat) (w : Works) :
    (w.applyFree e source trunk).trunks = (match w.trunk trunk with
      | some h => if h.node = source then w.trunks.set trunk none else w.trunks
      | none => w.trunks) := by
  unfold Works.applyFree
  cases view : w.trunk trunk with
  | none => rfl
  | some h =>
    dsimp only
    split
    · simp [Works.setTrunk]
    · rfl

/-- Settles O39: the SEIZE by the entry it meets, the FREE by what frees the entry and by nothing later touching the
view. -/
theorem seizeAndFreeMoveTheView : Obligations.SeizeAndFreeMoveTheView := by
  refine ⟨?seize, fun s f rest trunk tag head payload => ?free⟩
  case seize =>
    intro s f rest trunk tag hold rested head payload held
    have effect : effect .seize s.node
        = { s.node with ws := (s.taken rest).applySeize s.env f.source trunk tag hold } :=
      effect_of_passes (c := .seize) rfl head (g := onWorks fun e w => w.applySeize e f.source trunk tag hold)
        (by simp [actSeize, payload])
    rw [applySeize_eq] at effect
    exact exec_of_effect_rested effect rested
  case free =>
    have effect : effect .free s.node = { s.node with ws := (s.taken rest).applyFree s.env f.source trunk } :=
      effect_of_passes (c := .free) rfl head (g := onWorks fun e w => w.applyFree e f.source trunk)
        (by simp [actFree, payload])
    refine ⟨_, exec_of_effect effect, rfl, ?_⟩
    dsimp only [State.ws]
    rw [Node.settled_ws, settle_trunks]
    exact applyFree_trunks s.env f.source trunk (s.taken rest)

/-- Settles O40: the entry is freed, and nothing later touches the view. -/
theorem viewExpiryFreesTheEntry : Obligations.ViewExpiryFreesTheEntry := by
  intro s trunk h held
  have effect : effect (.trunkViewExpiry trunk) s.node = { s.node with ws := (s.ws.setTrunk trunk none).viewFreed s.env } := by
    change onWorks (fun e w => w.viewExpires e trunk) s.node = _
    simp only [onWorks, Works.viewExpires, held]
  have view : (settle s.env settleFuel ((s.ws.setTrunk trunk none).viewFreed s.env)).trunks
      = (s.ws.setTrunk trunk none).trunks := by
    rw [settle_trunks, viewFreed_trunks]
  refine ⟨_, exec_of_effect effect, ?_, fun other ne => ?_, rfl⟩
  · exact (trunk_congr view trunk).trans (trunk_setTrunk_none s.ws trunk)
  · exact (trunk_congr view other).trans (trunk_setTrunk_of_ne none ne)

/-! ### Seizing (R135, R137) -/

/-- Two changes of one job's record are one. -/
theorem modJob_modJob {f : JobRec → JobRec} (keeps : ∀ r, (f r).tag = r.tag) (tag : Nat) (g : JobRec → JobRec) (w : Works) :
    (w.modJob tag f).modJob tag g = w.modJob tag (fun r => g (f r)) := by
  have twice (r : JobRec) : (if (if r.tag = tag then f r else r).tag = tag then g (if r.tag = tag then f r else r)
      else (if r.tag = tag then f r else r)) = if r.tag = tag then g (f r) else r := by
    by_cases here : r.tag = tag <;> simp [here, keeps]
  simp only [Works.modJob, List.map_map, Function.comp_def, twice]

/-- Two changes of one job's gathering are one. -/
theorem modGather_modGather (tag : Nat) (f g : Gathering → Gathering) (w : Works) :
    (w.modGather tag f).modGather tag g = w.modGather tag (fun x => g (f x)) :=
  modJob_modJob (f := fun r => { r with gathering := f r.gathering }) (fun _ => rfl) tag _ w

theorem liveJob_modGather {w : Works} {tag : Nat} {r : JobRec} (f : Gathering → Gathering) (live : w.liveJob tag = some r) :
    (w.modGather tag f).liveJob tag = some { r with gathering := f r.gathering } := by
  obtain ⟨found, state⟩ := job_of_liveJob live
  exact liveJob_of_job (job_modJob_same (f := fun r => { r with gathering := f r.gathering }) (fun _ => rfl) found) state

/-- Whether a trunk is a candidate depends on the gathering it is asked for, and on no other. -/
theorem candidate_modGather (e : Env) (tag : Nat) (f : Gathering → Gathering) (w : Works) :
    (w.modGather tag f).candidate e = w.candidate e := by
  have same (t : Nat) (r : JobRec) :
      ((if r.tag = tag then { r with gathering := f r.gathering } else r).state.inProgress
        && decide ((if r.tag = tag then { r with gathering := f r.gathering } else r).trunk = some t))
        = (r.state.inProgress && decide (r.trunk = some t)) := by
    by_cases here : r.tag = tag <;> simp [here]
  funext g t
  simp only [Works.candidate, Works.modGather, Works.modJob, List.any_map, Function.comp_def, same]
  rfl

/-- The lowest candidate trunk is seized (R135). -/
theorem chooseTrunk_of_candidate {e : Env} {w : Works} {tag t : Nat} {r : JobRec} (live : w.liveJob tag = some r)
    (lowest : [0, 1, 2, 3].find? (w.candidate e r.gathering) = some t) :
    w.chooseTrunk e tag =
      (w.modGather tag (fun g => { g with seizing := some t, tried := t :: g.tried })).hand e
        (mkFrame e r.cls 0 (.seize t tag r.gathering.hold)) .plain := by
  simp only [Works.chooseTrunk, live, lowest]

theorem tag_of_liveJob {w : Works} {tag : Nat} {r : JobRec} (live : w.liveJob tag = some r) : r.tag = tag :=
  tag_of_job (job_of_liveJob live).1

/-- The gathering of a job at the start of trunk round 2 (R137). -/
def secondTrunkRound (g : Gathering) : Gathering := { g with trunkWait := none, trunkRound := 2, tried := [] }

/-- TRUNK_WAIT_TIMER_EXPIRY with a candidate trunk: its SEIZE is queued. -/
theorem exec_trunkWaitTimerExpiry {s : State} {tag t : Nat} {r : JobRec} (rested : s.rested) (line : s.env.onLine)
    (room : s.ws.room) (live : s.ws.liveJob tag = some r) (phase : r.gathering.phase = .trunk)
    (waits : r.gathering.trunkWait.isSome = true)
    (lowest : [0, 1, 2, 3].find? (s.ws.candidate s.env { r.gathering with tried := [] }) = some t) :
    exec (.trunkWaitTimerExpiry tag) s = .next (s.withWs
      ((s.ws.modGather tag (fun g => { g with trunkWait := none, trunkRound := 2, tried := [t], seizing := some t })).queueFrame
        (mkFrame s.env r.cls 0 (.seize t tag r.gathering.hold)) .plain)) := by
  have chosen := chooseTrunk_of_candidate (e := s.env) (t := t) (liveJob_modGather secondTrunkRound live) (by
    rw [candidate_modGather]
    exact lowest)
  rw [modGather_modGather, hand_of_room (w := s.ws.modGather _ _) _ _ line room] at chosen
  have effect : effect (.trunkWaitTimerExpiry tag) s.node
      = { s.node with ws := (s.ws.modGather tag secondTrunkRound).chooseTrunk s.env tag } := by
    change onWorks (fun e w => w.trunkWaitEnds e tag) s.node = _
    simp only [onWorks, Works.trunkWaitEnds, live, phase, waits, and_self, if_true]
    rfl
  rw [chosen] at effect
  exact exec_of_effect_rested effect rested

/-! ### The zone round (R140, R143) -/

/-- The record of a grant asked at a remote home. -/
def askedAt (home : Nat) (g : Grant) : Grant := { g with home := .remote home, verdict := .waiting }

/-- The gathering of a job whose zone round has begun for one remote zone, with the serial number of its ask. -/
def roundBegun (e : Env) (home serial : Nat) (g : Grant) (x : Gathering) : Gathering :=
  { x with phase := .zones, grants := [askedAt home g], gather := some (e.now + sec e.part.cfg.settings.gather)
           ask := some serial }

/-- The line after a ZONE-ASK of this node's (R169). -/
def askSent (e : Env) (r : JobRec) (trunk zone : Nat) (l : Line) : Line :=
  { l with askAlt := !l.askAlt, asks := l.asks + 1
           tx := enqueueFrame
             { frame := { cls := r.cls, source := e.part.node, dest := 0, alt := !l.askAlt
                          payload := .zoneAsk r.tag trunk r.gathering.hold [zone] }
               purpose := .ask (l.asks + 1), sending := false, doomed := false } l.tx }

/-- The entry of a zone homed elsewhere, asked again (R134, R139, R140). -/
theorem roundGrants_of_remote {e : Env} {w : Works} {home : Nat} {g : Grant} (kept : g.isDropped = false)
    (away : w.homes g.zone = false) (map : e.homeOf g.zone = some home) :
    roundGrants e w true [g] = [askedAt home g] := by
  simp [roundGrants, homeFor, away, map, kept, Home.isRemote, askedAt]

theorem homelessDenied_of_remote (home : Nat) (g : Grant) : homelessDenied [askedAt home g] = [askedAt home g] := by
  simp [homelessDenied, askedAt]

/-- With an entry that waits for its verdict a round is not over (R143). -/
theorem testRound_of_waiting {e : Env} {w : Works} {r : JobRec} {tag : Nat} (live : w.liveJob tag = some r)
    (waits : requiredGranted r.gathering.grants = false) : w.testRound e tag = w := by
  simp [Works.testRound, live, waits]

/-! ### A table of one job -/

/-- The works with one job record and no other. -/
def withJob (r : JobRec) (w : Works) : Works := { w with jobs := { w.jobs with recs := [r] } }

theorem withJob_of_one {w : Works} {r : JobRec} (one : w.jobs.recs = [r]) : withJob r w = w := by
  rw [withJob, ← one]

@[simp] theorem withJob_recs (r : JobRec) (w : Works) : (withJob r w).jobs.recs = [r] := rfl

@[simp] theorem withJob_withJob (r r' : JobRec) (w : Works) : withJob r (withJob r' w) = withJob r w := rfl

@[simp] theorem modJob_withJob {r : JobRec} {tag : Nat} (names : r.tag = tag) (f : JobRec → JobRec) (w : Works) :
    (withJob r w).modJob tag f = withJob (f r) w := by
  simp [withJob, Works.modJob, names]

/-- The record of a job with another gathering. -/
def regather (g : Gathering) (r : JobRec) : JobRec := { r with gathering := g }

@[simp] theorem modGather_withJob {r : JobRec} {tag : Nat} (names : r.tag = tag) (f : Gathering → Gathering) (w : Works) :
    (withJob r w).modGather tag f = withJob (regather (f r.gathering) r) w :=
  modJob_withJob names (fun r => { r with gathering := f r.gathering }) w

/-- A change of the only job's gathering. -/
theorem modGather_of_only {w : Works} {r : JobRec} (one : w.jobs.recs = [r]) (f : Gathering → Gathering) :
    w.modGather r.tag f = withJob (regather (f r.gathering) r) w :=
  modGather_of_one f one

theorem liveJob_withJob {r : JobRec} {tag : Nat} (names : r.tag = tag) (progress : r.state.inProgress = true) (w : Works) :
    (withJob r w).liveJob tag = some r :=
  liveJob_of_job (names ▸ job_of_one rfl) progress

/-- A ZONE-ASK is queued for a job with a trunk (R140, step 3). -/
theorem askOthers_of_remote {e : Env} {w : Works} {r : JobRec} {home trunk : Nat} {g : Grant} (line : e.onLine)
    (room : w.room) (grants : r.gathering.grants = [askedAt home g]) (held : r.trunk = some trunk) :
    (withJob r w).askOthers e r =
      { withJob (regather { r.gathering with ask := some (w.line.asks + 1) } r) w with
        line := askSent e r trunk g.zone w.line } := by
  have others : (r.gathering.grants.filter (fun g => g.home.isRemote && g.wanted)).map (·.zone) = [g.zone] := by
    simp [grants, askedAt, Home.isRemote, Grant.wanted]
  have numbered := modGather_withJob (r := r) rfl (fun x => { x with ask := some (w.line.asks + 1) })
    { w with line := { w.line with askAlt := !w.line.askAlt, asks := w.line.asks + 1 } }
  simp only [Works.askOthers, others, held]
  refine (congrArg (Works.hand e _ _) numbered).trans ((hand_of_room _ _ line ?_).trans rfl)
  exact room

/-- The gathering of a round that asks one remote zone, before the ask. -/
def roundBuilt (home : Nat) (g : Grant) (x : Gathering) : Gathering :=
  { x with phase := .zones, grants := [askedAt home g], ask := none }

/-- A zone round begins for one required zone homed elsewhere (R140). -/
theorem startRound_of_remote {e : Env} {w : Works} {r : JobRec} {home trunk : Nat} {g : Grant} (line : e.onLine)
    (room : w.room) (progress : r.state.inProgress = true) (held : r.trunk = some trunk)
    (grants : r.gathering.grants = [g]) (required : g.required = true) (kept : g.isDropped = false)
    (away : w.homes g.zone = false) (map : e.homeOf g.zone = some home) :
    (withJob r w).startRound e r.tag =
      { withJob (regather (roundBegun e home (w.line.asks + 1) g r.gathering) r) w with
        line := askSent e r trunk g.zone w.line } := by
  let built := regather (roundBuilt home g r.gathering) r
  let asked := regather { built.gathering with ask := some (w.line.asks + 1) } r
  let sent : Works := { w with line := askSent e r trunk g.zone w.line }
  have live := liveJob_withJob (r := r) rfl progress w
  have live' : (withJob built w).liveJob r.tag = some built := liveJob_withJob (r := built) rfl progress w
  have entries : roundGrants e (withJob r w) r.trunk.isSome r.gathering.grants = [askedAt home g] := by
    rw [held, grants]
    exact roundGrants_of_remote kept away map
  have begun : (withJob r w).modGather r.tag (fun x => { x with phase := .zones, grants := [askedAt home g], ask := none })
      = withJob built w := modGather_withJob rfl _ w
  have own : (withJob built w).askOwn e built = withJob built w := by
    simp [Works.askOwn, built, regather, roundBuilt, askedAt]
  have others : (withJob built w).askOthers e built = withJob asked sent :=
    askOthers_of_remote (r := built) line room rfl held
  have timed : (withJob asked sent).modGather r.tag
      (fun x => { x with gather := some (e.now + sec e.part.cfg.settings.gather) })
      = withJob (regather (roundBegun e home (w.line.asks + 1) g r.gathering) r) sent :=
    modGather_withJob (r := asked) rfl _ sent
  have undecided : (withJob (regather (roundBegun e home (w.line.asks + 1) g r.gathering) r) sent).testRound e r.tag = _ :=
    testRound_of_waiting
      (liveJob_withJob (r := regather (roundBegun e home (w.line.asks + 1) g r.gathering) r) rfl progress sent)
      (by simp [requiredGranted, regather, roundBegun, askedAt, required, Grant.isGranted])
  have whole : anyDropped [askedAt home g] [askedAt home g] = false := by simp [anyDropped]
  have undenied : anyRequiredDenied [askedAt home g] = false := by simp [anyRequiredDenied, askedAt]
  have undenied' : anyRequiredDenied built.gathering.grants = false := undenied
  have phase : built.gathering.phase = .zones := rfl
  simp only [Works.startRound, live, entries, homelessDenied_of_remote, begun, whole, undenied, live', own, undenied', phase,
    Bool.false_eq_true, if_false, if_true, others, timed, undecided]
  rfl

/-! ### Round 2, and the round after a trunk is won (R136, R145) -/

/-- Settles O41: the wait by the SEIZE it ends in, the backoff by the round that begins. -/
theorem trunkWaitAndBackoffTryAgain : Obligations.TrunkWaitAndBackoffTryAgain := by
  refine ⟨?wait, ?backoff⟩
  case wait =>
    intro s tag t r rested line room live phase waits lowest w
    exact (exec_trunkWaitTimerExpiry rested line room live phase waits lowest).trans rfl
  case backoff =>
    intro s t home r g rested line room one progress phase timer same held grants required kept away map
    have second := modGather_of_only one (fun g => { g with backoff := none, zoneRound := 2 })
    have begins := startRound_of_remote (r := regather { r.gathering with backoff := none, zoneRound := 2 } r) line room progress
      held grants required kept away map
    have effect : effect (.backoffTimerExpiry r.tag) s.node
        = { s.node with ws := (s.ws.modGather r.tag (fun g => { g with backoff := none, zoneRound := 2 })).startRound s.env r.tag } := by
      change onWorks (fun e w => w.backoffExpires e r.tag) s.node = _
      simp [onWorks, Works.backoffExpires, liveJob_of_job (job_of_one one) progress, phase, timer, same]
    rw [second] at effect
    exact exec_of_effect_rested (effect.trans (congrArg (fun v => { s.node with ws := v }) begins)) rested

/-- Settles O42: the echo applied to the view, the trunk the job's, and the round that begins. -/
theorem wonTrunkBeginsTheZoneRound : Obligations.WonTrunkBeginsTheZoneRound := by
  intro s x trunk hold home r g rested line room due one payload progress seizing free quiet grants required kept away map
  let won : Works := { s.echoGone with
    trunks := s.ws.trunks.set trunk (some { node := x.frame.source, tag := r.tag, expiry := s.env.now + sec (hold + 5) }) }
  have applied : s.echoGone.applySeize s.env x.frame.source trunk r.tag hold = won := by
    rw [applySeize_eq]
    exact congrArg (fun v => { s.echoGone with trunks := v }) (if_pos free)
  have live : won.liveJob r.tag = some r := liveJob_of_job (job_of_one one) progress
  have begins := startRound_of_remote (e := s.env) (w := won)
    (r := { regather { r.gathering with seizing := none } r with trunk := some trunk }) line room progress rfl grants required
    kept away map
  have echoed : s.echoGone.seizeEchoed s.env x.frame trunk r.tag hold
      = (withJob { regather { r.gathering with seizing := none } r with trunk := some trunk } won).startRound s.env r.tag := by
    have was : (s.echoGone.trunk trunk).isNone = true := by
      rw [show s.echoGone.trunk trunk = none from free]
      rfl
    have still : carrierOn s.env (won.modGather r.tag (fun g => { g with seizing := none })) trunk = false := quiet
    have made : (won.modGather r.tag (fun g => { g with seizing := none })).modJob r.tag (fun r => { r with trunk := some trunk })
        = withJob { regather { r.gathering with seizing := none } r with trunk := some trunk } won := by
      rw [modGather_of_only (w := won) one]
      exact modJob_withJob (r := regather { r.gathering with seizing := none } r) rfl _ won
    have seizes : (won.liveJob r.tag).filter (fun r => decide (r.gathering.seizing = some trunk)) = some r := by
      rw [live]
      exact Option.filter_some_pos (decide_eq_true seizing)
    simp only [Works.seizeEchoed, applied, was, seizes, still, made, if_true, Bool.false_eq_true, if_false]
  have effect : effect .seizeEcho s.node
      = { s.node with ws := s.echoGone.seizeEchoed s.env x.frame trunk r.tag hold } := by
    rw [effect_of_echoDue (c := .seizeEcho) (wanted := EchoPlace.isSeize) rfl due (by simp [EchoPlace.isSeize, payload])]
    simp [echoEffect, payload]
  rw [echoed] at effect
  exact exec_of_effect_rested (effect.trans (congrArg (fun v => { s.node with ws := v }) begins)) rested

end Sys2Proof.Proofs.TrunksAndRounds
end


section
/-! The verdicts of a zone round and the ways it fails (R141 to R146): answers, denials, timers, and the backoff or the
end of the job that follows. -/

namespace Sys2Proof.Proofs.RoundVerdicts

open Sys2Proof Sys2Proof.Machine Sys2Proof.Proofs.Effects Sys2Proof.Proofs.Commands Sys2Proof.Proofs.Reports
open Sys2Proof.Proofs.TrunksAndRounds Sys2Proof.Proofs.GivingBack

/-! ### A table of one job -/

theorem exec_of_settled {c : Instr} {s : State} {v u : Works} {n : Note} (h : effect c s.node = { s.node with ws := v.post n })
    (rested : v.agenda = []) (done : handle s.env n v = u) (quiet : u.agenda = []) : exec c s = .next (s.withWs u) :=
  exec_of_works h (by rw [settle_post s.env n rested (done ▸ quiet), done])

@[simp] theorem flag_withJob {r : JobRec} {tag : Nat} (names : r.tag = tag) (f : Degraded → Degraded) (w : Works) :
    (withJob r w).flag tag f = withJob { r with flags := f r.flags } w := modJob_withJob names _ w

theorem modGather_post (tag : Nat) (f : Gathering → Gathering) (n : Note) (w : Works) :
    (w.post n).modGather tag f = (w.modGather tag f).post n := rfl

theorem askingJob_withJob {r : JobRec} {tag : Nat} (names : r.tag = tag) (progress : r.state.inProgress = true)
    (asks : r.gathering.phase.asks = true) (w : Works) : (withJob r w).askingJob tag = some r := by
  rw [Works.askingJob, liveJob_withJob names progress]
  exact Option.filter_some_pos asks

/-- The record of a job whose only entry has taken a verdict. -/
def withVerdict (g : Grant) (v : GrantVerdict) (r : JobRec) : JobRec :=
  regather { r.gathering with grants := [{ g with verdict := v }] } r

theorem modGrants_withJob {r : JobRec} {g : Grant} {tag : Nat} (names : r.tag = tag) (grants : r.gathering.grants = [g])
    (v : GrantVerdict) (w : Works) :
    (withJob r w).modGrants tag (setVerdict g.zone v) = withJob (withVerdict g v r) w := by
  rw [Works.modGrants, modGather_withJob names]
  simp [withVerdict, setVerdict, grants]

/-- The entry a verdict names, wanted by a job that asks. -/
theorem verdictReaches_of_wanted {e : Env} {r : JobRec} {g : Grant} {tag : Nat} {v : Verdict} (names : r.tag = tag)
    (progress : r.state.inProgress = true) (asks : r.gathering.phase.asks = true) (grants : r.gathering.grants = [g])
    (wanted : g.wanted = true) (remote : Option Cls) (w : Works) :
    (withJob r w).verdictReaches e tag g.zone v remote = ((withJob r w).takeVerdict e tag g v).testRound e tag := by
  have entry : (grantOf r.gathering.grants g.zone).filter Grant.wanted = some g := by
    simp [grantOf, grants, Option.filter, wanted]
  simp only [Works.verdictReaches, askingJob_withJob names progress asks, Option.bind_some, entry]

/-! ### A GRANTED or a QUEUED answer (R142, R143) -/

/-- The record of a job whose only entry is GRANTED. -/
def grantedRecord (now : Instant) (ready : Nat) (mark : Bool) (g : Grant) (r : JobRec) : JobRec :=
  { withVerdict g (.granted (now + ms ready) mark) r with
    flags := if mark = true then { r.flags with zoneFaulted := true } else r.flags }

theorem takeVerdict_of_granted {e : Env} {r : JobRec} {g : Grant} {tag : Nat} (names : r.tag = tag)
    (grants : r.gathering.grants = [g]) (ready : Nat) (mark : Bool) (w : Works) :
    (withJob r w).takeVerdict e tag g (.granted ready mark) = withJob (grantedRecord e.now ready mark g r) w := by
  cases mark with
  | false => exact modGrants_withJob names grants _ w
  | true =>
    have granted := modGrants_withJob names grants (.granted (e.now + ms ready) true) w
    simp only [Works.takeVerdict, granted, if_true]
    exact flag_withJob (r := withVerdict g _ r) names _ w

/-- The record of a job READY until an instant. -/
def readyAt (t : Instant) (r : JobRec) : JobRec :=
  regather { r.gathering with phase := .ready, gather := none, ready := some t } r

/-- A round whose required entries are GRANTED, one of them later than now, is READY (R143). -/
theorem testRound_of_granted {e : Env} {r : JobRec} {tag : Nat} {t : Instant} (names : r.tag = tag)
    (progress : r.state.inProgress = true) (phase : r.gathering.phase = .zones)
    (granted : requiredGranted r.gathering.grants = true) (latest : latestReady e.now r.gathering.grants = t)
    (later : e.now < t) (w : Works) :
    (withJob r w).testRound e tag = (withJob (readyAt t r) w).post (.unit tag .allGranted) := by
  have not_due : ¬ t ≤ e.now := Nat.not_le.mpr later
  have ready := modGather_withJob (r := r) names (fun g => { g with phase := .ready, gather := none, ready := some t }) w
  simp only [Works.testRound, liveJob_withJob names progress, phase, granted, and_self, if_true, latest, if_neg not_due, ready]
  rfl

theorem ms_pos {n : Nat} (pos : 0 < n) : 0 < ms n := Nat.mul_pos (by decide) pos

/-- What the answers of a home leave (R141). -/
def answered (source : Nat) (r : JobRec) : JobRec :=
  regather { r.gathering with answers := r.gathering.answers.filter (fun a => a.1 ≠ source) } r

/-- An answer for the only entry, by its home while it waits: the home's answer timer stops (R141). -/
theorem answerFrame_of_waiting {e : Env} {f : Frame} {r : JobRec} {g : Grant} {v : Verdict} (progress : r.state.inProgress = true)
    (grants : r.gathering.grants = [g]) (waits : g.verdict = .waiting) (home : g.home = .remote f.source) (w : Works) :
    (withJob r w).answerFrame e f r.tag [(g.zone, v)] =
      ((withJob r w).verdictReaches e r.tag g.zone v (some f.cls)).modGather r.tag
        (fun x => { x with answers := x.answers.filter (fun a => a.1 ≠ f.source) }) := by
  have stops : answersHome r.gathering.grants f.source [(g.zone, v)] = true := by
    simp [answersHome, grantOf, grants, waits, home]
  simp only [Works.answerFrame, liveJob_withJob rfl progress, stops, if_true, List.foldl_cons, List.foldl_nil]

/-- What ZONE_ANSWER does with the frame it takes. -/
theorem effect_zoneAnswer {s : State} {f : Frame} {rest : List Frame} {tag : Nat} {verdicts : List (Nat × Verdict)}
    (head : s.passes f rest) (payload : f.payload = .zoneAnswer tag verdicts) :
    effect .zoneAnswer s.node = { s.node with ws := (s.taken rest).answerFrame s.env f tag verdicts } :=
  effect_of_passes (c := .zoneAnswer) rfl head (g := onWorks fun e w => w.answerFrame e f tag verdicts)
    (by simp [actZoneAnswer, payload])

/-- The report that a round has been GRANTED whole (R64). -/
theorem handle_allGranted {e : Env} {r : JobRec} {tag : Nat} (names : r.tag = tag) (state : r.state = .gathering) (w : Works) :
    handle e (.unit tag .allGranted) (withJob r w) = withJob { r with state := .readyWait } w := by
  have live := liveJob_withJob (r := r) names (by simp [state, JobState.inProgress]) w
  simp only [handle, Works.unitReports, live, state, if_true]
  exact modJob_withJob names _ w

section
variable {s : State} {f : Frame} {rest : List Frame} {r : JobRec} {g : Grant}

/-- A GRANTED answer for the one zone a round still wants. -/
theorem exec_zoneAnswer_of_granted {ready : Nat} {mark : Bool} (rested : s.rested) (head : s.passes f rest)
    (one : s.ws.jobs.recs = [r]) (state : r.state = .gathering) (phase : r.gathering.phase = .zones)
    (grants : r.gathering.grants = [g]) (waits : g.verdict = .waiting) (home : g.home = .remote f.source)
    (payload : f.payload = .zoneAnswer r.tag [(g.zone, .granted ready mark)]) (pos : 0 < ready) :
    exec .zoneAnswer s = .next (s.withWs (withJob { answered f.source (readyAt (s.env.now + ms ready)
      (grantedRecord s.env.now ready mark g r)) with state := .readyWait } (s.taken rest))) := by
  have progress : r.state.inProgress = true := by simp [state, JobState.inProgress]
  have effect := effect_zoneAnswer head payload
  rw [← withJob_of_one (w := s.taken rest) one, answerFrame_of_waiting progress grants waits home,
    verdictReaches_of_wanted rfl progress (by simp [phase, GatherPhase.asks]) grants (by simp [Grant.wanted, waits]),
    takeVerdict_of_granted rfl grants,
    testRound_of_granted (r := grantedRecord s.env.now ready mark g r) (tag := r.tag) (t := s.env.now + ms ready) rfl progress phase
      (by simp [grantedRecord, withVerdict, regather, requiredGranted, Grant.isGranted])
      (by simp [grantedRecord, withVerdict, regather, latestReady]) (Nat.lt_add_of_pos_right (ms_pos pos))] at effect
  let made := answered f.source (readyAt (s.env.now + ms ready) (grantedRecord s.env.now ready mark g r))
  have stopped : (withJob (readyAt (s.env.now + ms ready) (grantedRecord s.env.now ready mark g r)) (s.taken rest)).modGather r.tag
      (fun x => { x with answers := x.answers.filter (fun a => a.1 ≠ f.source) }) = withJob made (s.taken rest) :=
    modGather_withJob (r := readyAt (s.env.now + ms ready) (grantedRecord s.env.now ready mark g r)) rfl _ _
  have names : made.tag = r.tag := by simp [made, answered, readyAt, grantedRecord, withVerdict, regather]
  have gathers : made.state = .gathering := by simp [made, answered, readyAt, grantedRecord, withVerdict, regather, state]
  have told := handle_allGranted (e := s.env) names gathers (s.taken rest)
  rw [modGather_post, stopped] at effect
  exact exec_of_settled effect rested told rested

/-- A QUEUED answer for the one zone a round still wants. -/
theorem exec_zoneAnswer_of_queued {position : Nat} (rested : s.rested) (head : s.passes f rest)
    (one : s.ws.jobs.recs = [r]) (state : r.state = .gathering) (phase : r.gathering.phase = .zones)
    (grants : r.gathering.grants = [g]) (required : g.required = true) (waits : g.verdict = .waiting)
    (home : g.home = .remote f.source) (payload : f.payload = .zoneAnswer r.tag [(g.zone, .queued position)]) :
    exec .zoneAnswer s = .next (s.withWs
      (withJob (answered f.source (withVerdict g (.queued position) r)) (s.taken rest))) := by
  have progress : r.state.inProgress = true := by simp [state, JobState.inProgress]
  have effect := effect_zoneAnswer head payload
  have quiet : (withJob r (s.taken rest)).isAiring r.tag = false := by
    simp [Works.isAiring, liveJob_withJob rfl progress, phase]
  have queued : (withJob r (s.taken rest)).takeVerdict s.env r.tag g (.queued position)
      = withJob (withVerdict g (.queued position) r) (s.taken rest) := by
    simp [Works.takeVerdict, Works.takeQueued, quiet, modGrants_withJob rfl grants]
  have undecided : (withJob (withVerdict g (.queued position) r) (s.taken rest)).testRound s.env r.tag = _ :=
    testRound_of_waiting (liveJob_withJob (r := withVerdict g (.queued position) r) rfl progress (s.taken rest))
      (by simp [requiredGranted, withVerdict, regather, required, Grant.isGranted])
  rw [← withJob_of_one (w := s.taken rest) one, answerFrame_of_waiting progress grants waits home,
    verdictReaches_of_wanted rfl progress (by simp [phase, GatherPhase.asks]) grants (by simp [Grant.wanted, waits]),
    queued, undecided, modGather_withJob (r := withVerdict g (.queued position) r) (tag := r.tag) rfl] at effect
  exact exec_of_effect_rested effect rested

end

/-! ### A round that fails (R145, R146) -/

/-- The gathering of a job whose round has failed (R145). -/
def failed (e : Env) (conflict : Bool) (r : JobRec) : Gathering :=
  { r.gathering with
    phase := .backoff, grants := r.gathering.grants.map (fun x => if x.isDropped then x else { x with verdict := .left })
    answers := [], gather := none, ready := none, startTimer := none
    excluded := if conflict then r.trunk else r.gathering.excluded, reseize := conflict || r.gathering.reseize
    backoff := if r.gathering.zoneRound = 1 then some (e.now + ms (500 + 50 * e.part.node)) else none }

/-- The entries a failed round gives back: the wanted ones, but for those of this node not yet decided (R145). -/
def givesBack (r : JobRec) : List Grant :=
  r.gathering.grants.filter (fun x => x.wanted && !(x.home = .local && x.verdict = .waiting))

/-- The report of a failed round (R145). -/
def roundReport (r : JobRec) : UnitReport := if r.gathering.zoneRound = 1 then .roundFailed else .roundsExhausted

theorem roundFails_eq {e : Env} {w : Works} {tag : Nat} {r : JobRec} (live : w.liveJob tag = some r) (conflict : Bool) :
    w.roundFails e tag conflict =
      ((if conflict then (w.giveBack e r (givesBack r)).giveUpTrunk e r else w.giveBack e r (givesBack r)).modGather tag
        (fun _ => failed e conflict r)).post (.unit tag (roundReport r)) := by
  simp only [Works.roundFails, live]
  rfl

theorem giveBack_nil (e : Env) (r : JobRec) (w : Works) : w.giveBack e r [] = w := rfl

/-- A trunk given up, with a place in the queue for its FREE (R138). -/
theorem giveUpTrunk_withJob {e : Env} {r : JobRec} {trunk : Nat} {w : Works} (line : e.onLine) (room : w.room)
    (held : r.trunk = some trunk) :
    (withJob r w).giveUpTrunk e r =
      withJob { r with trunk := none } ((quietChannel r w).queueFrame (mkFrame e r.cls 0 (.free trunk r.tag)) .plain) := by
  have dropped : (withJob r w).dropTrunk r = withJob { r with trunk := none } (quietChannel r w) := by
    cases channel : r.channel with
    | none => simp [Works.dropTrunk, quietChannel, held, channel]
    | some n =>
      simp [Works.dropTrunk, quietChannel, held, channel]
      rfl
  have room' : (withJob { r with trunk := none } (quietChannel r w)).room := by
    unfold quietChannel
    split <;> exact room
  simp only [Works.giveUpTrunk, held, dropped]
  exact (hand_of_room _ _ line room').trans rfl

/-- The report of a failed first round: the record is GATHERING again (R64). -/
theorem handle_roundFailed {e : Env} {r : JobRec} {tag : Nat} (names : r.tag = tag)
    (state : r.state = .gathering ∨ r.state = .readyWait) (w : Works) :
    handle e (.unit tag .roundFailed) (withJob r w) = withJob { r with state := .gathering } w := by
  rcases state with state | state
  · have live := liveJob_withJob (r := r) names (by simp [state, JobState.inProgress]) w
    have other : r.state ≠ .readyWait := by simp [state]
    simp only [handle, Works.unitReports, live, if_neg other]
    rw [← state]
  · have live := liveJob_withJob (r := r) names (by simp [state, JobState.inProgress]) w
    simp only [handle, Works.unitReports, live, if_pos state]
    exact modJob_withJob names _ w

/-- The answer for a job that has not asked leaves it (R143). -/
theorem testRound_of_backoff {e : Env} {r : JobRec} {tag : Nat} (names : r.tag = tag) (progress : r.state.inProgress = true)
    (phase : r.gathering.phase = .backoff) (w : Works) : (withJob r w).testRound e tag = withJob r w := by
  simp [Works.testRound, liveJob_withJob names progress, phase]

section
variable {s : State} {f : Frame} {rest : List Frame} {r : JobRec} {g : Grant}

/-- The record of a job whose round failed by a trunk conflict. -/
def conflicted (e : Env) (g : Grant) (r : JobRec) : JobRec :=
  regather (failed e true (withVerdict g (.denied (some .trunk)) r)) { r with trunk := none }

/-- The works after a trunk conflict, with the FREE of the trunk given up in the queue (R138, R146). -/
def freed (e : Env) (trunk : Nat) (g : Grant) (r : JobRec) (w : Works) : Works :=
  (quietChannel (withVerdict g (.denied (some .trunk)) r) w).queueFrame (mkFrame e r.cls 0 (.free trunk r.tag)) .plain

/-- DENIED-TRUNK for a wanted entry of a job that does not air (R146). -/
theorem verdictReaches_of_conflict {e : Env} {trunk : Nat} {w : Works} {cls : Option Cls} (line : e.onLine) (room : w.room)
    (asks : (r.state = .gathering ∧ r.gathering.phase = .zones) ∨ (r.state = .readyWait ∧ r.gathering.phase = .ready))
    (first : r.gathering.zoneRound = 1) (held : r.trunk = some trunk) (grants : r.gathering.grants = [g])
    (wanted : g.wanted = true) :
    (withJob r w).verdictReaches e r.tag g.zone (.denied .trunk) cls =
      (withJob (conflicted e g r) (freed e trunk g r w)).post (.unit r.tag .roundFailed) := by
  let denied := withVerdict g (.denied (some .trunk)) r
  have progress : r.state.inProgress = true := by
    rcases asks with ⟨state, -⟩ | ⟨state, -⟩ <;> simp [state, JobState.inProgress]
  have asking : r.gathering.phase.asks = true := by
    rcases asks with ⟨-, phase⟩ | ⟨-, phase⟩ <;> simp [phase, GatherPhase.asks]
  have live : (withJob denied w).liveJob r.tag = some denied := liveJob_withJob (r := denied) rfl progress w
  have grounded : (withJob denied w).isAiring r.tag = false := by
    have waits : decide (denied.gathering.phase = .airing) = false := by
      change decide (r.gathering.phase = .airing) = false
      rcases asks with ⟨-, phase⟩ | ⟨-, phase⟩ <;> simp [phase]
    rw [Works.isAiring, live, Option.any_some, waits]
  have nothing : givesBack denied = [] := by
    simp [givesBack, denied, withVerdict, regather, Grant.wanted]
  have report : roundReport denied = .roundFailed := if_pos first
  have given : (withJob denied w).giveUpTrunk e denied
      = withJob { denied with trunk := none } (freed e trunk g r w) := giveUpTrunk_withJob (r := denied) line room held
  have ended : (withJob { denied with trunk := none } (freed e trunk g r w)).modGather r.tag (fun _ => failed e true denied)
      = withJob (conflicted e g r) (freed e trunk g r w) := modGather_withJob (r := { denied with trunk := none }) rfl _ _
  have fails := roundFails_eq live (e := e) true
  simp only [if_true, nothing, giveBack_nil, given, ended, report] at fails
  have taken : (withJob r w).takeVerdict e r.tag g (.denied .trunk)
      = (withJob (conflicted e g r) (freed e trunk g r w)).post (.unit r.tag .roundFailed) := by
    have entry : (withJob r w).modGrants r.tag (setVerdict g.zone (.denied (some .trunk))) = withJob denied w :=
      modGrants_withJob rfl grants _ w
    simp only [Works.takeVerdict, Works.takeDenial, entry, if_true, Works.trunkConflict, grounded, Bool.false_eq_true,
      if_false, fails]
  rw [verdictReaches_of_wanted rfl progress asking grants wanted, taken]
  exact testRound_of_backoff (r := conflicted e g r) rfl progress rfl
    ((freed e trunk g r w).post (.unit r.tag .roundFailed))

/-- An answer with DENIED-TRUNK; whether it stops an answer timer, none is left to run. -/
theorem answerFrame_of_conflict {e : Env} {trunk : Nat} {w : Works} (line : e.onLine) (room : w.room)
    (asks : (r.state = .gathering ∧ r.gathering.phase = .zones) ∨ (r.state = .readyWait ∧ r.gathering.phase = .ready))
    (first : r.gathering.zoneRound = 1) (held : r.trunk = some trunk) (grants : r.gathering.grants = [g])
    (wanted : g.wanted = true) :
    (withJob r w).answerFrame e f r.tag [(g.zone, .denied .trunk)] =
      (withJob (conflicted e g r) (freed e trunk g r w)).post (.unit r.tag .roundFailed) := by
  have reaches := verdictReaches_of_conflict (cls := some f.cls) line room asks first held grants wanted
  have stopped : ((withJob (conflicted e g r) (freed e trunk g r w)).post (.unit r.tag .roundFailed)).modGather r.tag
      (fun x => { x with answers := x.answers.filter (fun a => a.1 ≠ f.source) })
      = (withJob (conflicted e g r) (freed e trunk g r w)).post (.unit r.tag .roundFailed) :=
    modGather_withJob (r := conflicted e g r) rfl _ ((freed e trunk g r w).post (.unit r.tag .roundFailed))
  simp only [Works.answerFrame, List.foldl_cons, List.foldl_nil, reaches]
  rw [modGather_post] at stopped
  rw [modGather_post, stopped, ite_self]

end

theorem freed_kept (e : Env) (trunk : Nat) (g : Grant) (r : JobRec) (w : Works) :
    (freed e trunk g r w).agenda = w.agenda
      ∧ (freed e trunk g r w).line.tx = queuedAmong (mkFrame e r.cls 0 (.free trunk r.tag)) w.line.tx := by
  unfold freed quietChannel
  split <;> exact ⟨rfl, rfl⟩

/-- Settles O43: the GRANTED and the QUEUED answer by the record they leave, DENIED-TRUNK by the failed round. -/
theorem answersCompleteTheRound : Obligations.AnswersCompleteTheRound := by
  refine ⟨?answers, ?conflict⟩
  case answers =>
    intro s f rest r g v rested head one state phase grants required waits home payload answers
    refine ⟨fun ready mark verdict pos => ?_, fun position verdict => ?_⟩
    · subst verdict
      rw [exec_zoneAnswer_of_granted rested head one state phase grants waits home payload pos]
      simp only [answered, readyAt, grantedRecord, withVerdict, regather]
      rfl
    · subst verdict
      rw [exec_zoneAnswer_of_queued rested head one state phase grants required waits home payload]
      simp only [answered, withVerdict, regather]
      rfl
  case conflict =>
    intro s f rest r g trunk rested line room head one asks first held grants wanted payload
    obtain ⟨quiet, queue⟩ := freed_kept s.env trunk g r (s.taken rest)
    have effect := effect_zoneAnswer head payload
    rw [← withJob_of_one (w := s.taken rest) one,
      answerFrame_of_conflict (w := s.taken rest) line room asks first held grants wanted] at effect
    have state : (conflicted s.env g r).state = .gathering ∨ (conflicted s.env g r).state = .readyWait :=
      asks.imp And.left And.left
    refine ⟨_, _, exec_of_settled effect (quiet.trans rested) (handle_roundFailed (r := conflicted s.env g r) rfl state _)
      (quiet.trans rested), rfl, rfl, rfl, rfl, rfl, rfl, held, rfl, if_pos first, ?_⟩
    exact queue

/-! ### The timers of a round (R141, R144) -/

/-- The gathering of a first round that failed with one entry, dropped by nobody. -/
theorem failed_of_first {r : JobRec} {g : Grant} (e : Env) (first : r.gathering.zoneRound = 1)
    (grants : r.gathering.grants = [g]) (kept : g.isDropped = false) :
    failed e false r =
      { r.gathering with
        phase := .backoff, grants := [{ g with verdict := .left }], answers := [], gather := none, ready := none
        startTimer := none, backoff := some (e.now + ms (500 + 50 * e.part.node)) } := by
  simp [failed, first, grants, kept]

theorem isDropped_of_wanted {g : Grant} (wanted : g.wanted = true) : g.isDropped = false := by
  unfold Grant.wanted at wanted
  unfold Grant.isDropped
  split at wanted <;> simp_all

/-- A round that fails without a trunk conflict, once its zones have been given back. -/
theorem roundFails_of_given {e : Env} {r : JobRec} {w u : Works} {tag : Nat} (names : r.tag = tag)
    (progress : r.state.inProgress = true) (given : (withJob r w).giveBack e r (givesBack r) = withJob r u) :
    (withJob r w).roundFails e tag false =
      (withJob (regather (failed e false r) r) u).post (.unit tag (roundReport r)) := by
  rw [roundFails_eq (liveJob_withJob names progress w), given]
  exact congrArg (Works.post _) (modGather_withJob names _ u)

/-- One remote zone given back: a ZONE-LEAVE is queued for it (R150). -/
theorem giveBack_of_remote {e : Env} {r : JobRec} {g : Grant} {w : Works} {home : Nat} (line : e.onLine) (room : w.room)
    (remote : g.home = .remote home) :
    (withJob r w).giveBack e r [g] =
      withJob r (w.queueFrame (mkFrame e r.cls 0 (.zoneLeave r.tag [g.zone])) .plain) := by
  have left : (withJob r w).giveBack e r [g]
      = (withJob r w).hand e (mkFrame e r.cls 0 (.zoneLeave r.tag [g.zone])) .plain := by
    simp [Works.giveBack, Works.leaveZones, remote, Home.isRemote]
  rw [left]
  exact (hand_of_room _ _ line (by exact room)).trans rfl

/-- A first round that fails with its one wanted zone given back, and the record after it (R145). -/
def backedOff (e : Env) (g : Grant) (r : JobRec) : JobRec :=
  { r with
    state := .gathering
    gathering := { r.gathering with
      phase := .backoff, grants := [{ g with verdict := .left }], answers := [], gather := none, ready := none
      startTimer := none, backoff := some (e.now + ms (500 + 50 * e.part.node)) } }

/-- The record whose round failed is GATHERING again at the unit's report. -/
theorem handle_roundFailed_of_backoff {e : Env} {r : JobRec} (g : Grant) (state : r.state = .gathering ∨ r.state = .readyWait)
    (w : Works) :
    handle e (.unit r.tag .roundFailed) (withJob (regather (backedOff e g r).gathering r) w) = withJob (backedOff e g r) w :=
  handle_roundFailed (r := regather (backedOff e g r).gathering r) rfl state w

section
variable {s : State} {r : JobRec} {g : Grant} {home : Nat}

/-- A command at which the first round fails with its wanted zone still to be given back. -/
theorem exec_of_left_round {c : Instr} (effect : effect c s.node = { s.node with ws := s.ws.roundFails s.env r.tag false })
    (rested : s.rested) (line : s.env.onLine) (room : s.ws.room) (one : s.ws.jobs.recs = [r])
    (state : r.state = .gathering ∨ r.state = .readyWait) (first : r.gathering.zoneRound = 1)
    (grants : r.gathering.grants = [g]) (remote : g.home = .remote home) (wanted : g.wanted = true) :
    exec c s = .next (s.withWs (withJob (backedOff s.env g r)
      (s.ws.queueFrame (mkFrame s.env r.cls 0 (.zoneLeave r.tag [g.zone])) .plain))) := by
  have progress : r.state.inProgress = true := by
    rcases state with state | state <;> simp [state, JobState.inProgress]
  have back : givesBack r = [g] := by simp [givesBack, grants, wanted, remote]
  have report : roundReport r = .roundFailed := if_pos first
  have fails := roundFails_of_given (e := s.env) (r := r) (w := s.ws) rfl progress
    (by rw [back]; exact giveBack_of_remote line room remote)
  have record : failed s.env false r = (backedOff s.env g r).gathering :=
    failed_of_first s.env first grants (isDropped_of_wanted wanted)
  rw [withJob_of_one one, record, report] at fails
  rw [fails] at effect
  exact exec_of_settled effect rested (handle_roundFailed_of_backoff g state _) rested

/-- ANSWER_TIMER_EXPIRY of the home of the only entry, which waits (R141). -/
theorem answerExpires_of_waiting (e : Env) (w : Works) (state : r.state = .gathering) (phase : r.gathering.phase = .zones)
    (first : r.gathering.zoneRound = 1) (grants : r.gathering.grants = [g]) (required : g.required = true)
    (remote : g.home = .remote home) (waits : g.verdict = .waiting) (timer : ∃ a ∈ r.gathering.answers, a.1 = home) :
    (withJob r w).answerExpires e r.tag home =
      (withJob (regather (backedOff e g r).gathering r) w).post (.unit r.tag .roundFailed) := by
  have progress : r.state.inProgress = true := by simp [state, JobState.inProgress]
  let stopped := answered home r
  let denied := withVerdict g (.denied none) stopped
  have runs : r.gathering.answers.any (fun a => a.1 = home) = true := by simpa using timer
  have zones : (r.gathering.grants.filter (fun g => g.home = .remote home)).map (·.zone) = [g.zone] := by
    simp [grants, remote]
  have stops : (withJob r w).modGather r.tag (fun x => { x with answers := x.answers.filter (fun a => a.1 ≠ home) })
      = withJob stopped w := modGather_withJob rfl _ w
  have asking : (withJob stopped w).askingJob r.tag = some stopped :=
    askingJob_withJob (r := stopped) rfl progress (by simp [stopped, answered, regather, phase, GatherPhase.asks]) w
  have entry : (grantOf stopped.gathering.grants g.zone).filter (fun g => decide (g.verdict = .waiting)) = some g := by
    simp [stopped, answered, regather, grantOf, grants, Option.filter, waits]
  have taken : (withJob stopped w).modGrants r.tag (setVerdict g.zone (.denied none)) = withJob denied w :=
    modGrants_withJob (r := stopped) rfl grants _ w
  have nothing : givesBack denied = [] := by simp [givesBack, denied, withVerdict, regather, Grant.wanted]
  have fails := roundFails_of_given (e := e) (r := denied) (w := w) (tag := r.tag) rfl progress
    (by rw [nothing]; exact giveBack_nil e denied _)
  have report : roundReport denied = .roundFailed := if_pos first
  have record : regather (failed e false denied) denied = regather (backedOff e g r).gathering r := by
    rw [failed_of_first (r := denied) e (g := { g with verdict := .denied none }) first rfl rfl]
    simp only [denied, stopped, withVerdict, answered, regather, backedOff]
  rw [record, report] at fails
  simp only [Works.answerExpires, liveJob_withJob rfl progress, runs, if_true, zones, stops, Works.noAnswer, asking,
    Option.bind_some, entry, required, taken, fails]

end

/-! ### The end after the second round (R145) -/

/-- Work that an empty table passes over: what is idle, and a report of the unit. -/
def lateNote (n : Note) : Prop := idleNote n ∨ ∃ tag u, n = .unit tag u

/-- Word of a frame that was not sent (R135, R141). -/
def lossNote : Note → Prop
  | .seizeLost _ _ | .askUnsent _ _ => True
  | _ => False

theorem lateNote_of_loss {n : Note} (loss : lossNote n) : lateNote n := by
  cases n with
  | seizeLost | askUnsent => exact .inl trivial
  | notice | request | unit | channel | dispatch | verdict | revoked | readyDue | beginRound | testStart | flashLook =>
    exact absurd loss (by simp [lossNote])

theorem handle_unit_of_empty {w : Works} (e : Env) (tag : Nat) (u : UnitReport) (empty : w.jobs.recs = []) :
    handle e (.unit tag u) w = w := by
  have gone : w.liveJob tag = none := by simp [Works.liveJob, Works.job, empty]
  simp [handle, Works.unitReports, gone]

/-- An empty table settles late work without a trace in jobs and counters. -/
theorem settle_late {e : Env} {fuel : Nat} {w : Works} (empty : w.jobs.recs = []) (agenda : ∀ n ∈ w.agenda, lateNote n) :
    Spares w (settle e fuel w) := by
  induction fuel generalizing w with
  | zero => exact .refl w
  | succ fuel ih =>
    cases work : w.agenda with
    | nil =>
      rw [settle_of_empty e (fuel + 1) w work]
      exact .refl w
    | cons n rest =>
      rw [work] at agenda
      obtain ⟨first, later⟩ := List.forall_mem_cons.mp agenda
      have taken : Spares w { w with agenda := rest } := ⟨rfl, rfl, rfl, fun _ _ => rfl, rfl⟩
      rw [settle_cons e fuel w n rest work]
      rcases first with idle | ⟨tag, u, rfl⟩
      · obtain ⟨spares, ns, handed, more⟩ :=
          handle_of_idle (w := { w with agenda := rest }) (JobEnds.idleTable_of_empty (e := e) empty) idle
        refine (taken.trans spares).trans (ih ((congrArg JobTable.recs spares.jobs).trans empty) fun m at_ => ?_)
        rw [handed] at at_
        exact (List.mem_append.mp at_).elim (later m) fun here => .inl (more m here)
      · rw [handle_unit_of_empty e tag u (w := { w with agenda := rest }) empty]
        exact taken.trans (ih empty later)

/-- A frame handed over leaves word of one frame not sent at most. -/
theorem hand_losses (e : Env) (f : Frame) (p : TxPurpose) (w : Works) :
    ∃ ns, (w.hand e f p).agenda = w.agenda ++ ns ∧ ns.length ≤ 1 ∧ ∀ n ∈ ns, lossNote n := by
  have none (v : Works) (same : v.agenda = w.agenda) : ∃ ns, v.agenda = w.agenda ++ ns ∧ ns.length ≤ 1 ∧ ∀ n ∈ ns, lossNote n :=
    ⟨[], by simp [same], by simp, by simp⟩
  have unsent (g : Frame) (q : TxPurpose) (v : Works) (same : v.agenda = w.agenda) :
      ∃ ns, (v.unsent g q).agenda = w.agenda ++ ns ∧ ns.length ≤ 1 ∧ ∀ n ∈ ns, lossNote n := by
    unfold Works.unsent
    split
    · exact ⟨[_], congrArg (· ++ [_]) same, le_rfl, by simp [lossNote]⟩
    · exact ⟨[_], congrArg (· ++ [_]) same, le_rfl, by simp [lossNote]⟩
    · exact none _ same
  unfold Works.hand
  repeat' split
  · exact none w rfl
  · exact unsent f p w rfl
  · exact none _ rfl
  · exact unsent f p w rfl
  · exact unsent _ _ _ rfl
  · exact unsent f p w rfl

/-- Remote zones given back leave word of one frame not sent at most. -/
theorem giveBack_losses {e : Env} {w : Works} {r : JobRec} {gs : List Grant} (distant : ∀ g ∈ gs, g.home ≠ .local) :
    ∃ ns, (w.giveBack e r gs).agenda = w.agenda ++ ns ∧ ns.length ≤ 1 ∧ ∀ n ∈ ns, lossNote n := by
  have own : gs.filter (fun g => g.home = .local) = [] := List.filter_eq_nil_iff.mpr (by simpa using distant)
  unfold Works.giveBack
  dsimp only
  rw [own]
  split
  · exact ⟨[], by simp [Works.leaveZones], by simp, by simp⟩
  · exact hand_losses e _ _ w

/-- The one job is still to end, and what else is left to do is late work. -/
structure Doomed (tag : Nat) (w v : Works) : Prop where
  record : ∃ r, v.jobs.recs = [r] ∧ r.tag = tag ∧ r.ending = none ∧ r.state.inProgress = true
  counters : ∀ c, c ≠ .framesDropped → v.counter c = w.counter c
  size : v.report.counters.length = w.report.counters.length
  agenda : ∃ ns, v.agenda = w.agenda ++ ns ∧ ∀ n ∈ ns, lateNote n

section
variable {e : Env} {r : JobRec} {w : Works} {tag : Nat}

theorem doomed_of_aside {u v : Works} {x : JobRec} (aside : Aside u v) (one : u.jobs.recs = [x]) (names : x.tag = tag)
    (ending : x.ending = none) (progress : x.state.inProgress = true) (counters : u.report = w.report)
    (agenda : u.agenda = w.agenda) : Doomed tag w v := by
  obtain ⟨ns, handed, idle⟩ := aside.agenda
  refine ⟨⟨x, (congrArg JobTable.recs aside.jobs).trans one, names, ending, progress⟩, fun c other => ?_, ?_,
    ns, handed.trans (congrArg (· ++ ns) agenda), fun n at_ => .inl (idle n at_)⟩
  · exact (aside.counters c other).trans (by simp [Works.counter, counters])
  · exact aside.size.trans (by rw [counters])

/-- The unit chooses another trunk for a job that is to end: it still is. -/
theorem chooseTrunk_doomed (names : r.tag = tag) (ending : r.ending = none) (progress : r.state.inProgress = true) :
    Doomed tag w ((withJob r w).chooseTrunk e tag) := by
  simp only [Works.chooseTrunk, liveJob_withJob names progress]
  split
  · rw [modGather_withJob names]
    exact doomed_of_aside (hand_aside e _ .plain _) (x := regather _ r) rfl names ending progress rfl rfl
  · unfold Works.trunkRoundFails
    split
    · rw [modGather_withJob rfl]
      exact doomed_of_aside (.refl _) (x := regather _ r) rfl names ending progress rfl rfl
    · exact ⟨⟨r, rfl, names, ending, progress⟩, fun _ _ => rfl, rfl, [.unit r.tag .trunkExhausted], rfl,
        by simp [lateNote]⟩

/-- Word of a frame not sent, at a job that is to end. -/
theorem handle_loss_doomed {n : Note} (loss : lossNote n) (names : r.tag = tag) (ending : r.ending = none)
    (progress : r.state.inProgress = true) (phase : r.gathering.phase = .backoff) :
    Doomed tag w (handle e n (withJob r w)) := by
  have still : Doomed tag w (withJob r w) := doomed_of_aside (.refl _) (x := r) rfl names ending progress rfl rfl
  have only {t : Nat} {x : JobRec} (live : (withJob r w).liveJob t = some x) : x = r ∧ r.tag = t := by
    obtain ⟨found, -⟩ := job_of_liveJob live
    obtain rfl : x = r := by simpa using List.mem_of_find?_eq_some found
    exact ⟨rfl, tag_of_job found⟩
  cases n with
  | seizeLost t trunk =>
    change Doomed tag w ((withJob r w).seizeUnsent e t trunk)
    unfold Works.seizeUnsent
    split
    · next x live =>
      obtain ⟨rfl, here⟩ := only live
      split
      · rw [modGather_withJob here]
        subst names
        subst here
        exact chooseTrunk_doomed (r := regather _ x) rfl ending progress
      · exact still
    · exact still
  | askUnsent t serial =>
    change Doomed tag w ((withJob r w).startAnswers e t serial)
    unfold Works.startAnswers
    split
    · exact still
    · next x live =>
      obtain ⟨rfl, -⟩ := only live
      rw [if_neg (by simp [phase])]
      exact still
  | notice | request | unit | channel | dispatch | verdict | revoked | readyDue | beginRound | testStart | flashLook =>
    exact absurd loss (by simp [lossNote])

/-- The report that the rounds are exhausted ends the one job NO-ZONE, counted as failed; what follows is late work. -/
theorem settle_exhausted {v : Works} {ms : List Note} (fuel : Nat) (one : v.jobs.recs = [r]) (names : r.tag = tag)
    (ending : r.ending = none) (progress : r.state.inProgress = true) (size : v.report.counters.length = 16)
    (agenda : v.agenda = .unit tag .roundsExhausted :: ms) (late : ∀ n ∈ ms, lateNote n) :
    (settle e (fuel + 1) v).jobs.recs = []
      ∧ (settle e (fuel + 1) v).counter .jobsFailed = saturate (v.counter .jobsFailed) := by
  subst names
  have takes : r.ending.getD .noZone = .noZone := by rw [ending]; rfl
  have told : handle e (.unit r.tag .roundsExhausted) { v with agenda := ms } = Works.endJob e r.tag .noZone { v with agenda := ms } := by
    have live : ({ v with agenda := ms } : Works).liveJob r.tag = some r := liveJob_of_job (job_of_one one) progress
    simp only [handle, Works.unitReports, live]
  have ended := JobEnds.endJob_ended (w := { v with agenda := ms }) e one takes
  obtain ⟨ns, handed, idle⟩ := ended.agenda
  have spares := settle_late (e := e) (fuel := fuel) ended.recs fun n at_ => by
    rw [handed] at at_
    exact (List.mem_append.mp at_).elim (late n) fun here => .inl (idle n here)
  rw [settle_cons e fuel v _ ms agenda, told]
  refine ⟨(congrArg JobTable.recs spares.jobs).trans ended.recs, ?_⟩
  refine (spares.counters _ (by decide)).trans ((ended.counters _ (by decide)).trans ?_)
  exact JobEnds.counter_bump_same (w := { v with agenda := ms }) .jobsFailed size

end

section
variable {s : State} {r : JobRec}

/-- The record of a job whose last round has failed. -/
def exhausted (e : Env) (r : JobRec) : JobRec := regather (failed e false r) r

/-- The works of GATHER_TIMER_EXPIRY at the second round, before the unit's report is heard. -/
theorem effect_gatherTimerExpiry (one : s.ws.jobs.recs = [r]) (progress : r.state.inProgress = true)
    (phase : r.gathering.phase = .zones) (timer : r.gathering.gather.isSome = true) :
    effect (.gatherTimerExpiry r.tag) s.node = { s.node with ws := s.ws.roundFails s.env r.tag false } := by
  change onWorks (fun e w => w.gatherExpires e r.tag) s.node = _
  simp [onWorks, Works.gatherExpires, liveJob_of_job (job_of_one one) progress, phase, timer]

/-- The second round fails: its zones are given back, and the rounds are reported exhausted (R145). -/
theorem roundFails_of_second {w : Works} (e : Env) (one : w.jobs.recs = [r]) (progress : r.state.inProgress = true)
    (second : r.gathering.zoneRound = 2) :
    w.roundFails e r.tag false =
      (withJob (exhausted e r) (w.giveBack e r (givesBack r))).post (.unit r.tag .roundsExhausted) := by
  have back := giveBack_aside e r (givesBack r) w
  have same : withJob r (w.giveBack e r (givesBack r)) = w.giveBack e r (givesBack r) :=
    withJob_of_one ((congrArg JobTable.recs back.jobs).trans one)
  have report : roundReport r = .roundsExhausted := if_neg (by simp [second])
  have fails := roundFails_of_given (e := e) (r := r) (w := w) rfl progress (u := w.giveBack e r (givesBack r))
    (by rw [withJob_of_one one, same])
  rwa [withJob_of_one one, report] at fails

theorem givesBack_distant (distant : ∀ g ∈ r.gathering.grants, g.home ≠ .local) : ∀ g ∈ givesBack r, g.home ≠ .local :=
  fun g at_ => distant g (List.mem_filter.mp at_).1

/-- A second round that fails ends its job, whatever word comes of the ZONE-LEAVE. -/
theorem settle_secondRound {w : Works} (e : Env) (rested : w.agenda = [])
    (progress : r.state.inProgress = true) (ending : r.ending = none) (size : w.report.counters.length = 16)
    (distant : ∀ g ∈ r.gathering.grants, g.home ≠ .local) :
    let v := (withJob (exhausted e r) (w.giveBack e r (givesBack r))).post (.unit r.tag .roundsExhausted)
    (settle e settleFuel v).jobs.recs = []
      ∧ (settle e settleFuel v).counter .jobsFailed = saturate (w.counter .jobsFailed) := by
  intro v
  have back := giveBack_aside e r (givesBack r) w
  obtain ⟨ns, agenda, few, losses⟩ := giveBack_losses (e := e) (w := w) (givesBack_distant distant)
  rw [rested, List.nil_append] at agenda
  have work : v.agenda = ns ++ [.unit r.tag .roundsExhausted] := congrArg (· ++ [_]) agenda
  have counts := back.counters .jobsFailed (by decide)
  match ns with
  | [] =>
    obtain ⟨recs, counter⟩ := settle_exhausted (e := e) (v := v) (r := exhausted e r) (tag := r.tag) (ms := []) 65535 rfl rfl
      ending progress (back.size.trans size) work (by simp)
    exact ⟨recs, counter.trans (congrArg saturate counts)⟩
  | [n] =>
    have loss := losses n (List.mem_singleton_self n)
    have doomed := handle_loss_doomed (e := e) (r := exhausted e r) (tag := r.tag)
      (w := { w.giveBack e r (givesBack r) with agenda := [.unit r.tag .roundsExhausted] }) loss rfl ending progress rfl
    obtain ⟨x, one', names, ending', progress'⟩ := doomed.record
    obtain ⟨ms, handed, late⟩ := doomed.agenda
    obtain ⟨recs, counter⟩ := settle_exhausted (e := e) 65534 one' names ending' progress'
      (doomed.size.trans (back.size.trans size)) handed late
    have stepped : settle e settleFuel v = settle e (65534 + 1) (handle e n (withJob (exhausted e r)
        { w.giveBack e r (givesBack r) with agenda := [.unit r.tag .roundsExhausted] })) := settle_cons e 65535 v n _ work
    rw [stepped]
    exact ⟨recs, counter.trans (congrArg saturate ((doomed.counters _ (by decide)).trans counts))⟩
  | _ :: _ :: _ => simp at few

/-- Nothing is wanted any more once a round has failed. -/
theorem wanted_of_exhausted (e : Env) : ((exhausted e r).gathering.grants.filter Grant.wanted) = [] := by
  refine List.filter_eq_nil_iff.mpr fun g at_ => ?_
  obtain ⟨x, -, rfl⟩ := List.mem_map.mp at_
  by_cases dropped : x.isDropped = true
  · rw [if_pos dropped]
    have verdict : x.verdict = .dropped := by simpa [Grant.isDropped] using dropped
    simp [Grant.wanted, verdict]
  · rw [if_neg dropped]
    simp [Grant.wanted]

/-- With room for the ZONE-LEAVE, the FREE and the report, the report of the job's end stands in the queue. -/
theorem settle_secondRound_reports {w : Works} (e : Env) (rested : w.agenda = [])
    (progress : r.state.inProgress = true) (ending : r.ending = none) (line : e.onLine)
    (mask : e.part.cfg.mask.afterStart = true) (room : w.line.tx.length + 3 ≤ txCapacity)
    (distant : ∀ g ∈ r.gathering.grants, g.home ≠ .local) :
    let v := (withJob (exhausted e r) (w.giveBack e r (givesBack r))).post (.unit r.tag .roundsExhausted)
    ∃ x ∈ (settle e settleFuel v).line.tx, ∃ b : ReportBody,
      x.frame = mkFrame e .information 0 (.jobReport b) ∧ b.tag = r.tag ∧ b.code = .noZone := by
  intro v
  obtain ⟨agenda, tx⟩ := ReportedEnds.giveBack_sends (r := r) (w := w) line (show _ < txCapacity by omega)
    (givesBack_distant distant)
  let x := exhausted e r
  let left := withJob x (w.giveBack e r (givesBack r))
  have quiet : left.agenda = [] := agenda.trans rested
  have takes : x.ending.getD .noZone = .noZone := congrArg (Option.getD · _) ending
  have releases : ReportedEnds.Sends 1 (left.modJob r.tag (JobEnds.endingRecord left .noZone x))
      ((left.modJob r.tag (JobEnds.endingRecord left .noZone x)).releaseGathering e r.tag) := by
    have ends : left.modJob r.tag (JobEnds.endingRecord left .noZone x) = withJob (JobEnds.endingRecord left .noZone x x) left :=
      modJob_withJob (r := x) rfl _ _
    have live : (withJob (JobEnds.endingRecord left .noZone x x) left).liveJob r.tag = some _ :=
      liveJob_withJob (r := JobEnds.endingRecord left .noZone x x) rfl progress left
    have nothing : (JobEnds.endingRecord left .noZone x x).gathering.grants.filter Grant.wanted = [] := wanted_of_exhausted e
    rw [ends]
    simp only [Works.releaseGathering, live, nothing, giveBack_nil]
    have abandoned := ReportedEnds.abandonSeize_sends (JobEnds.endingRecord left .noZone x x)
      (withJob (JobEnds.endingRecord left .noZone x x) left)
    have freed := abandoned.trans (ReportedEnds.giveUpTrunk_sends (e := e) (JobEnds.endingRecord left .noZone x x) line (by
      have short := abandoned.tx
      have : (withJob (JobEnds.endingRecord left .noZone x x) left).line.tx.length ≤ w.line.tx.length + 1 := tx
      show _ < txCapacity
      omega))
    exact freed.trans (k := 0) ⟨rfl, le_rfl⟩
  obtain ⟨⟨ns, handed, looks⟩, y, at_, b, frame, tag, code⟩ := ReportedEnds.endJob_reported_of_sends (w := left) (r := x)
    (code := .noZone) rfl takes line mask (by
      have : left.line.tx.length ≤ w.line.tx.length + 1 := tx
      omega) releases
  have gone := recs_endJob_of_one (w := left) (r := x) e .noZone rfl
  rw [quiet, List.nil_append] at handed
  have calm := ReportedEnds.settle_calm (e := e) (fuel := 65535) gone (by rw [handed]; exact looks)
  have told : handle e (.unit r.tag .roundsExhausted) left = left.endJob e x.tag .noZone := by
    have live : left.liveJob r.tag = some x := liveJob_withJob (r := x) rfl progress _
    simp only [handle, Works.unitReports, live]
    rfl
  have settled : settle e settleFuel v = settle e 65535 (left.endJob e x.tag .noZone) :=
    (settle_post_cons (w := left) e 65535 _ quiet).trans (congrArg _ told)
  rw [settled, calm]
  exact ⟨y, at_, b, frame, tag, code⟩

end

/-- Settles O44: a first round that fails, by what it gives back; a second one, by the end of the job. -/
theorem failedRoundsBackOffOrEnd : Obligations.FailedRoundsBackOffOrEnd := by
  refine ⟨?first, ?second⟩
  case first =>
    intro s r g home rested line room one first grants required remote record works left
    refine ⟨fun state phase waits timer => ?answer, fun state phase timer wanted => ?gather, fun state phase timer wanted => ?start⟩
    case answer =>
      have expires := answerExpires_of_waiting s.env s.ws state phase first grants required remote waits timer
      rw [withJob_of_one one] at expires
      have effect : effect (.answerTimerExpiry r.tag home) s.node
          = { s.node with ws := s.ws.answerExpires s.env r.tag home } := rfl
      rw [expires] at effect
      exact exec_of_settled effect rested (handle_roundFailed_of_backoff g (.inl state) _) rested
    case gather =>
      have progress : r.state.inProgress = true := by simp [state, JobState.inProgress]
      exact exec_of_left_round (effect_gatherTimerExpiry one progress phase timer) rested line room one (.inl state) first
        grants remote wanted
    case start =>
      have progress : r.state.inProgress = true := by simp [state, JobState.inProgress]
      have effect : effect (.startTimerExpiry r.tag) s.node = { s.node with ws := s.ws.roundFails s.env r.tag false } := by
        change onWorks (fun e w => w.startExpires e r.tag) s.node = _
        simp [onWorks, Works.startExpires, liveJob_of_job (job_of_one one) progress, phase, timer]
      exact exec_of_left_round effect rested line room one (.inr state) first grants remote wanted
  case second =>
    intro s r rested wf one progress ending second phase timer distant
    obtain ⟨size, -⟩ := wf
    have effect := effect_gatherTimerExpiry one progress phase timer
    rw [roundFails_of_second s.env one progress second] at effect
    obtain ⟨recs, counter⟩ := settle_secondRound s.env rested progress ending size distant
    refine ⟨_, exec_of_effect effect, recs, rfl, counter, fun reportable => ?_⟩
    obtain ⟨line, mask, room, -⟩ := reportable
    exact settle_secondRound_reports s.env rested progress ending line mask room distant

end Sys2Proof.Proofs.RoundVerdicts
end


section
/-! The start of an airing at the end of the ready delay (R94, R143, R144), and the loss of a zone (R148, R149): what the
job and its channel are told, and what settles after the unit has given all back. -/

namespace Sys2Proof.Proofs.StartAndLoss

open Sys2Proof Sys2Proof.Machine Sys2Proof.Proofs.Effects Sys2Proof.Proofs.Commands Sys2Proof.Proofs.Reports
open Sys2Proof.Proofs.TrunksAndRounds Sys2Proof.Proofs.RoundVerdicts Sys2Proof.Proofs.GivingBack Sys2Proof.Proofs.JobEnds
open Sys2Proof.Proofs.SampleDecoding

/-! ### The ready delay has passed (R94, R143, R144) -/

/-- The record of a job whose start timer runs. -/
def startable (e : Env) (r : JobRec) : JobRec :=
  regather { r.gathering with ready := none, startTimer := some (e.now + sec e.part.cfg.settings.gather) } r

/-- The gathering of a job whose airing starts with nothing given up. -/
def airingGathering (g : Gathering) : Gathering := { g with phase := .airing, startTimer := none, answers := [] }

/-- The record of a job whose airing the unit has begun, every entry of it GRANTED. -/
def begun (r : JobRec) : JobRec := { regather (airingGathering r.gathering) r with zonesAired := r.gathering.grants.length }

/-- The record of a job whose airing has started, every entry of it GRANTED. -/
def aired (r : JobRec) : JobRec := { begun r with state := .airing }

section
variable {e : Env} {w : Works} {r : JobRec} {n : Nat}

/-- The ready timer of a trunk without carrier. -/
theorem readyExpires_of_quiet (progress : r.state.inProgress = true) (phase : r.gathering.phase = .ready)
    (timer : r.gathering.ready.isSome = true) (quiet : ∀ t, r.trunk = some t → carrierOn e w t = false) :
    (withJob r w).readyExpires e r.tag = (withJob (startable e r) w).post (.unit r.tag .readyPassed) := by
  have passed : (withJob r w).modGather r.tag
      (fun g => { g with ready := none, startTimer := some (e.now + sec e.part.cfg.settings.gather) })
      = withJob (startable e r) w := modGather_withJob rfl _ w
  have silent (t : Nat) (held : r.trunk = some t) : carrierOn e (withJob r w) t = false := quiet t held
  simp only [Works.readyExpires, liveJob_withJob rfl progress, phase, timer, and_self, if_true, passed]
  cases held : r.trunk with
  | none => rfl
  | some t => simp only [silent t held, Bool.false_eq_true, if_false]

theorem givenUpAtStart_of_granted {g : Grant} (granted : g.isGranted = true) : g.givenUpAtStart = false := by
  simp [Grant.givenUpAtStart, granted]

theorem requiredGranted_of_all {gs : List Grant} (granted : ∀ g ∈ gs, g.isGranted = true) : requiredGranted gs = true :=
  List.all_eq_true.mpr fun g at_ => by simp [granted g at_]

theorem mayStart_of_startable (phase : r.gathering.phase = .ready) (granted : ∀ g ∈ r.gathering.grants, g.isGranted = true) :
    (startable e r).gathering.mayStart = true := by
  simp [startable, regather, Gathering.mayStart, phase, requiredGranted_of_all granted]

/-- Without the start condition of its channel a job does not start (R94). -/
theorem tryStart_of_not_met (channel : r.channel = some n) (met : w.startCondition e n = false) : (withJob (startable e r) w).tryStart e r.tag = withJob (startable e r) w := by
  have found : (withJob (startable e r) w).job r.tag = some (startable e r) := job_of_one (r := startable e r) rfl
  have still : (withJob (startable e r) w).startCondition e n = false := met
  have on : (startable e r).channel = some n := channel
  simp only [Works.tryStart, found, on, still, Bool.false_eq_true, and_false, if_false]

/-- The start of the airing as the unit takes it, every entry GRANTED: nothing is given up (R143). -/
theorem airingStarted_of_granted {x : JobRec} {tag : Nat} (names : x.tag = tag) (progress : x.state.inProgress = true)
    (granted : ∀ g ∈ x.gathering.grants, g.isGranted = true) :
    (withJob x w).airingStarted e tag = withJob (begun x) w := by
  have nobody : x.gathering.grants.filter Grant.givenUpAtStart = [] :=
    List.filter_eq_nil_iff.mpr fun g at_ => by simp [givenUpAtStart_of_granted (granted g at_)]
  have all : x.gathering.grants.filter Grant.isGranted = x.gathering.grants :=
    List.filter_eq_self.mpr granted
  have same : x.gathering.grants.map (fun g => if g.givenUpAtStart then { g with verdict := .dropped } else g)
      = x.gathering.grants := by
    refine (List.map_congr_left fun g at_ => ?_).trans (List.map_id _)
    rw [givenUpAtStart_of_granted (granted g at_)]
    rfl
  have phase : (withJob x w).modGather tag (fun g =>
      { g with phase := .airing, startTimer := none, answers := [],
               grants := g.grants.map (fun x => if x.givenUpAtStart then { x with verdict := .dropped } else x) })
      = withJob (regather (airingGathering x.gathering) x) w := by
    rw [modGather_withJob names, same]
    rfl
  simp only [Works.airingStarted, liveJob_withJob names progress, nobody, if_true, all, phase]
  exact modJob_withJob (r := regather (airingGathering x.gathering) x) names _ w

/-- With the start condition of its channel the airing starts (R94, R143). -/
theorem tryStart_of_met (state : r.state = .readyWait) (channel : r.channel = some n) (phase : r.gathering.phase = .ready)
    (granted : ∀ g ∈ r.gathering.grants, g.isGranted = true) (met : w.startCondition e n = true) :
    (withJob (startable e r) w).tryStart e r.tag = withJob (aired (startable e r)) (w.startPlaying n r.trunk) := by
  have found : (withJob (startable e r) w).job r.tag = some (startable e r) := job_of_one (r := startable e r) rfl
  have still : (withJob (startable e r) w).startCondition e n = true := met
  have on : (startable e r).channel = some n := channel
  have waits : (startable e r).state = .readyWait := state
  have started := airingStarted_of_granted (e := e) (w := w.startPlaying n r.trunk) (x := startable e r) (tag := r.tag) rfl
    (by rw [waits]; rfl) granted
  simp only [Works.tryStart, found, on, waits, mayStart_of_startable phase granted, still, and_self, if_true]
  refine (congrArg (Works.modJob r.tag _) started).trans ?_
  exact modJob_withJob (r := begun (startable e r)) rfl _ _

end

/-- READY_TIMER_EXPIRY without carrier on the job's trunk: the unit reports, and the Job Table tries the start. -/
theorem exec_readyTimerExpiry {s : State} {r : JobRec} {u : Works} (rested : s.rested) (one : s.ws.jobs.recs = [r])
    (state : r.state = .readyWait) (phase : r.gathering.phase = .ready) (timer : r.gathering.ready.isSome = true)
    (quiet : ∀ t, r.trunk = some t → carrierOn s.env s.ws t = false)
    (tries : (withJob (startable s.env r) s.ws).tryStart s.env r.tag = u) (done : u.agenda = []) :
    exec (.readyTimerExpiry r.tag) s = .next (s.withWs u) := by
  have progress : r.state.inProgress = true := by simp [state, JobState.inProgress]
  have passed := readyExpires_of_quiet progress phase timer quiet
  rw [withJob_of_one one] at passed
  have effect : effect (.readyTimerExpiry r.tag) s.node = { s.node with ws := s.ws.readyExpires s.env r.tag } := rfl
  rw [passed] at effect
  have live : (withJob (startable s.env r) s.ws).liveJob r.tag = some (startable s.env r) :=
    liveJob_withJob (r := startable s.env r) rfl progress s.ws
  refine exec_of_settled effect rested ?_ done
  simp only [handle, Works.unitReports, live, tries]

/-- Settles O45, by whether the channel's start condition holds. -/
theorem readyDelayPassedStartsTheAiring : Obligations.ReadyDelayPassedStartsTheAiring := by
  intro s r n rested sized two one state channel phase timer granted quiet
  obtain ⟨-, -, -, -, channels, -, -⟩ := sized
  refine ⟨fun unmet => ?waits, fun met => ?starts⟩
  case waits =>
    exact exec_readyTimerExpiry rested one state phase timer quiet (tryStart_of_not_met channel unmet) rested
  case starts =>
    have playing : (s.ws.startPlaying n r.trunk).channel n = _ := channel_modChannel_same _ (channels ▸ two)
    refine ⟨_, _, exec_readyTimerExpiry rested one state phase timer quiet (tryStart_of_met state channel phase granted met)
      rested, rfl, rfl, rfl, rfl, rfl, ?_, ?_, ?_, ?_⟩
    · exact congrArg Channel.state playing
    · exact congrArg Channel.transmit playing
    · exact (congrArg Channel.fifo playing).trans rfl
    · exact congrArg Channel.played playing

/-! ### Settling on to the unit's report -/

/-- Idle work before a piece of work leaves the table as it is; then that piece is done, with idle work behind it. -/
theorem settle_reaches {e : Env} {w : Works} {n : Note} {ns ms : List Note} (fuel : Nat) (idle : idleTable e w)
    (agenda : w.agenda = ns ++ n :: ms) (before : ∀ m ∈ ns, idleNote m) (behind : ∀ m ∈ ms, idleNote m) :
    ∃ v, Spares w v ∧ (∀ m ∈ v.agenda, idleNote m) ∧ settle e (fuel + ns.length + 1) w = settle e fuel (handle e n v) := by
  induction ns generalizing w ms with
  | nil => exact ⟨{ w with agenda := ms }, ⟨rfl, rfl, rfl, fun _ _ => rfl, rfl⟩, behind, settle_cons e fuel w n ms agenda⟩
  | cons m ns ih =>
    obtain ⟨first, later⟩ := List.forall_mem_cons.mp before
    have taken : Spares w { w with agenda := ns ++ n :: ms } := ⟨rfl, rfl, rfl, fun _ _ => rfl, rfl⟩
    obtain ⟨spares, added, handed, more⟩ := handle_of_idle (w := { w with agenda := ns ++ n :: ms }) idle first
    have all : ∀ k ∈ ms ++ added, idleNote k := fun k at_ => (List.mem_append.mp at_).elim (behind k) (more k)
    obtain ⟨v, kept, quiet, settled⟩ := ih (w := handle e m { w with agenda := ns ++ n :: ms })
      (fun r here => idle r (spares.jobs ▸ here)) (handed.trans (by simp)) later all
    refine ⟨v, (taken.trans spares).trans kept, quiet, ?_⟩
    rw [← settled]
    exact settle_cons e (fuel + ns.length + 1) w m (ns ++ n :: ms) agenda

/-- Word of at most `k` frames not sent has been handed on. -/
def losses (k : Nat) (w v : Works) : Prop :=
  ∃ ns, v.agenda = w.agenda ++ ns ∧ ns.length ≤ k ∧ ∀ n ∈ ns, lossNote n

theorem losses.trans {j k : Nat} {u v w : Works} (h : losses j u v) (g : losses k v w) : losses (j + k) u w := by
  obtain ⟨ns, first, few, all⟩ := h
  obtain ⟨ms, second, few', all'⟩ := g
  refine ⟨ns ++ ms, by rw [second, first, List.append_assoc], by rw [List.length_append]; omega, fun n at_ => ?_⟩
  exact (List.mem_append.mp at_).elim (all n) (all' n)

theorem losses_of_same {k : Nat} {w v : Works} (same : v.agenda = w.agenda) : losses k w v :=
  ⟨[], by simp [same], Nat.zero_le k, by simp⟩

theorem giveUpTrunk_losses (e : Env) (r : JobRec) (w : Works) : losses 1 w (w.giveUpTrunk e r) := by
  unfold Works.giveUpTrunk
  split
  · have dropped : (w.dropTrunk r).agenda = w.agenda := by
      unfold Works.dropTrunk
      dsimp only
      split <;> rfl
    obtain ⟨ns, handed, few, all⟩ := hand_losses e (mkFrame e r.cls 0 (.free _ r.tag)) .plain (w.dropTrunk r)
    exact ⟨ns, handed.trans (by rw [dropped]), few, all⟩
  · exact losses_of_same rfl

/-- A job without zones of this node gives back all it holds. -/
theorem releaseGathering_losses {e : Env} {r : JobRec} (w : Works) (progress : r.state.inProgress = true)
    (distant : ∀ g ∈ r.gathering.grants, g.home ≠ .local) : losses 2 w ((withJob r w).releaseGathering e r.tag) := by
  simp only [Works.releaseGathering, liveJob_withJob rfl progress]
  have left : losses 1 w ((withJob r w).giveBack e r (r.gathering.grants.filter Grant.wanted)) :=
    giveBack_losses (w := withJob r w) fun g at_ => distant g (List.mem_filter.mp at_).1
  have abandoned : losses 0 _ (((withJob r w).giveBack e r (r.gathering.grants.filter Grant.wanted)).abandonSeize r) :=
    losses_of_same (by unfold Works.abandonSeize; split <;> rfl)
  exact ((left.trans abandoned).trans (giveUpTrunk_losses e r _)).trans (k := 0) (losses_of_same rfl)

theorem idleNote_of_loss {n : Note} (loss : lossNote n) : idleNote n := by
  cases n with
  | seizeLost | askUnsent => trivial
  | notice | request | unit | channel | dispatch | verdict | revoked | readyDue | beginRound | testStart | flashLook =>
    exact absurd loss (by simp [lossNote])

/-- A job that has given all back asks for nothing and waits for no dispatch. -/
theorem idleTable_of_givenBack {e : Env} {v : Works} {r : JobRec} (one : v.jobs.recs = [givenBack r])
    (state : r.state ≠ .queued) : idleTable e v := by
  simp [idleTable, one, eligible, givenBack, state, Gathering.none, GatherPhase.asks]

/-- The loss of a zone settles on to the unit's report, with all given back before it. -/
theorem settle_losesZone {e : Env} {r : JobRec} {w : Works} (u : UnitReport) (rested : w.agenda = [])
    (progress : r.state.inProgress = true) (state : r.state ≠ .queued) (distant : ∀ g ∈ r.gathering.grants, g.home ≠ .local) :
    ∃ v fuel, v.jobs.recs = [givenBack r] ∧ (∀ m ∈ v.agenda, idleNote m)
      ∧ settle e settleFuel ((withJob r w).losesZone e r.tag u) = settle e fuel (handle e (.unit r.tag u) v) := by
  obtain ⟨ns, handed, few, all⟩ := releaseGathering_losses (e := e) w progress distant
  have recs := recs_releaseGathering_of_one (w := withJob r w) e rfl rfl progress
  rw [rested, List.nil_append] at handed
  obtain ⟨v, spares, quiet, settled⟩ := settle_reaches (w := (withJob r w).losesZone e r.tag u) (ns := ns) (ms := [])
    (65535 - ns.length) (idleTable_of_givenBack recs state) (congrArg (· ++ [_]) handed)
    (fun m at_ => idleNote_of_loss (all m at_)) (by simp)
  have fuel : 65535 - ns.length + ns.length + 1 = settleFuel := by
    change _ = 65536
    omega
  rw [fuel] at settled
  exact ⟨v, _, (congrArg JobTable.recs spares.jobs).trans recs, quiet, settled⟩

/-! ### What the Job Table does at the loss (R64, R66) -/

/-- The record of a preempted job that retries (R66). -/
def retrying (e : Env) (r : JobRec) : JobRec :=
  { r with retries := 0, channel := none, expanded := if r.isReplay then r.expanded else none, snapshot := none
           binding := none, state := .retryWait, retryTimer := some (e.now + ms (500 + 50 * e.part.node)) }

/-- A preempted job with a retry left gives its channel up and waits (R66). -/
theorem preempt_of_retry {e : Env} {v : Works} {r : JobRec} (one : v.jobs.recs = [r]) (progress : r.state.inProgress = true)
    (ending : r.ending = none) (retries : r.retries = 1) :
    (v.preempt e r.tag).jobs.recs = [retrying e (givenBack r)] ∧ handsIdle v (v.preempt e r.tag) := by
  have left := releaseGathering_of_one e one progress
  have recs := recs_releaseGathering_of_one e one rfl progress
  have kept : handsIdle v (v.releaseGathering e r.tag) := by
    obtain ⟨ns, handed, idle⟩ := left.agenda
    refine ⟨ns, handed.trans (congrArg (· ++ ns) ?_), idle⟩
    unfold quietChannel
    split <;> rfl
  have live := liveJob_of_job (job_of_one one) progress
  have goes : ¬ (r.ending.isSome = true ∨ r.retries = 0) := by simp [ending, retries]
  simp only [Works.preempt, live, if_neg goes]
  cases channel : r.channel with
  | none =>
    exact ⟨recs_modJob_of_one (r := givenBack r) (retrying e) recs, kept.trans ⟨[.dispatch], rfl, by simp [idleNote]⟩⟩
  | some n =>
    obtain ⟨fl, cs, ns, eq, looks⟩ := letGo_eq n (v.releaseGathering e r.tag)
    have letGo : handsIdle (v.releaseGathering e r.tag) (((v.releaseGathering e r.tag).letGo n).dropReads n) := by
      rw [eq]
      exact ⟨ns, rfl, idleNote_of_dispatch looks⟩
    refine ⟨recs_modJob_of_one (r := givenBack r) (retrying e) ?_, (kept.trans letGo).trans ⟨[.dispatch], rfl, by simp [idleNote]⟩⟩
    change (((v.releaseGathering e r.tag).letGo n).dropReads n).jobs.recs = _
    rw [eq]
    exact recs

/-- Idle work on top of idle work. -/
theorem idle_of_handed {v u : Works} (quiet : ∀ m ∈ v.agenda, idleNote m) (h : handsIdle v u) : ∀ m ∈ u.agenda, idleNote m := by
  obtain ⟨ns, handed, idle⟩ := h
  rw [handed]
  exact fun m at_ => (List.mem_append.mp at_).elim (quiet m) (idle m)

section
variable {e : Env} {w : Works} {r : JobRec}

/-- A required zone lost to a better class sends the job to its one retry (R66, R149). -/
theorem settle_preempted (rested : w.agenda = []) (progress : r.state.inProgress = true) (state : r.state ≠ .queued)
    (distant : ∀ g ∈ r.gathering.grants, g.home ≠ .local) (ending : r.ending = none) (retries : r.retries = 1) :
    (settle e settleFuel ((withJob r w).losesZone e r.tag .preempted)).jobs.recs = [retrying e (givenBack r)] := by
  obtain ⟨v, fuel, one, quiet, settled⟩ := settle_losesZone (e := e) .preempted rested progress state distant
  obtain ⟨recs, handed⟩ := preempt_of_retry (e := e) (r := givenBack r) one progress ending retries
  have told : handle e (.unit r.tag .preempted) v = v.preempt e (givenBack r).tag := by
    have live : v.liveJob r.tag = some (givenBack r) := liveJob_of_job (job_of_one one) progress
    simp only [handle, Works.unitReports, live]
    rfl
  have idle : idleTable e (v.preempt e (givenBack r).tag) := by
    intro x at_
    rw [recs] at at_
    obtain rfl := List.mem_singleton.mp at_
    exact ⟨eligible_of_not_queued (by simp [retrying]), rfl, rfl⟩
  rw [settled, told]
  exact (congrArg JobTable.recs (settle_idle idle (idle_of_handed quiet handed)).jobs).trans recs

/-- A required zone lost otherwise ends the job (R64, R149). -/
theorem settle_zoneLost (rested : w.agenda = []) (progress : r.state.inProgress = true) (state : r.state ≠ .queued)
    (distant : ∀ g ∈ r.gathering.grants, g.home ≠ .local) (ending : r.ending = none) :
    (settle e settleFuel ((withJob r w).losesZone e r.tag .zoneLost)).jobs.recs = [] := by
  obtain ⟨v, fuel, one, quiet, settled⟩ := settle_losesZone (e := e) .zoneLost rested progress state distant
  have takes : (givenBack r).ending.getD .noZone = .noZone := congrArg (Option.getD · _) ending
  have told : handle e (.unit r.tag .zoneLost) v = v.endJob e (givenBack r).tag .noZone := by
    have live : v.liveJob r.tag = some (givenBack r) := liveJob_of_job (job_of_one one) progress
    have fresh : ¬ (givenBack r).ending.isSome = true := by simp [givenBack, ending]
    simp only [handle, Works.unitReports, live, if_neg fresh]
    rfl
  have ended := endJob_ended e one takes
  rw [settled, told]
  exact (congrArg JobTable.recs (settle_idle (idleTable_of_empty ended.recs)
    (idle_of_handed quiet ended.agenda)).jobs).trans ended.recs

/-! ### Revocations and answers in the airing (R143, R148, R149) -/

/-- A revocation of a wanted entry's zone. -/
theorem takeRevocation_of_wanted {g : Grant} (reason : Reason) (progress : r.state.inProgress = true)
    (asks : r.gathering.phase.asks = true) (grants : r.gathering.grants = [g]) (wanted : g.wanted = true) :
    (withJob r w).takeRevocation e r.tag g.zone reason =
      if g.required then
        (withJob r w).losesZone e r.tag (if reason = .preempted then .preempted else .zoneLost)
      else ((withJob r w).modGrants r.tag (setVerdict g.zone .dropped)).missed r.tag := by
  have entry : (grantOf r.gathering.grants g.zone).filter Grant.wanted = some g := by
    simp [grantOf, grants, Option.filter, wanted]
  simp only [Works.takeRevocation, askingJob_withJob rfl progress asks, Option.bind_some, entry]

/-- QUEUED or DENIED-TRUNK for the required zone of an airing ends it, as the loss of the zone does (log 51). -/
theorem takeVerdict_of_airing {g : Grant} {v : Verdict} (progress : r.state.inProgress = true)
    (phase : r.gathering.phase = .airing) (grants : r.gathering.grants = [g]) (required : g.required = true)
    (refused : v = .denied .trunk ∨ ∃ position, v = .queued position) :
    ∃ verdict, (withJob r w).takeVerdict e r.tag g v = (withJob (withVerdict g verdict r) w).losesZone e r.tag .zoneLost := by
  rcases refused with rfl | ⟨position, rfl⟩
  · have airs : (withJob (withVerdict g (.denied (some .trunk)) r) w).isAiring r.tag = true := by
      have live := liveJob_withJob (r := withVerdict g (.denied (some .trunk)) r) rfl progress w
      change (withJob (withVerdict g (.denied (some .trunk)) r) w).liveJob r.tag = _ at live
      rw [Works.isAiring, live]
      exact decide_eq_true phase
    refine ⟨.denied (some .trunk), ?_⟩
    simp only [Works.takeVerdict, Works.takeDenial, modGrants_withJob rfl grants, if_true, Works.trunkConflict, airs]
  · have airs : (withJob r w).isAiring r.tag = true := by
      rw [Works.isAiring, liveJob_withJob rfl progress]
      exact decide_eq_true phase
    refine ⟨.queued position, ?_⟩
    simp only [Works.takeVerdict, Works.takeQueued, airs, required, Bool.and_self, if_true, modGrants_withJob rfl grants]

/-- An answer that ends the airing, whether an answer timer stops with it or not. -/
theorem settle_answerFrame_of_airing {f : Frame} {g : Grant} {v : Verdict} (rested : w.agenda = []) (state : r.state = .airing)
    (phase : r.gathering.phase = .airing) (ending : r.ending = none) (grants : r.gathering.grants = [g])
    (required : g.required = true) (granted : g.isGranted = true) (distant : g.home ≠ .local)
    (refused : v = .denied .trunk ∨ ∃ position, v = .queued position) :
    (settle e settleFuel ((withJob r w).answerFrame e f r.tag [(g.zone, v)])).jobs.recs = [] := by
  have progress : r.state.inProgress = true := by simp [state, JobState.inProgress]
  have wanted : g.wanted = true := by
    unfold Grant.isGranted at granted
    unfold Grant.wanted
    split at granted <;> simp_all
  have decided : g.verdict ≠ .waiting := by
    intro waits
    simp [Grant.isGranted, waits] at granted
  have stops : answersHome r.gathering.grants f.source [(g.zone, v)] = false := by
    simp [answersHome, grantOf, grants, decided]
  obtain ⟨verdict, taken⟩ := takeVerdict_of_airing (e := e) (w := w) progress phase grants required refused
  have recs := recs_releaseGathering_of_one (w := withJob (withVerdict g verdict r) w) (r := withVerdict g verdict r) e rfl rfl progress
  have settled : ((withJob (withVerdict g verdict r) w).losesZone e r.tag .zoneLost).testRound e r.tag
      = (withJob (withVerdict g verdict r) w).losesZone e r.tag .zoneLost := by
    have live : ((withJob (withVerdict g verdict r) w).losesZone e r.tag .zoneLost).liveJob r.tag
        = some (givenBack (withVerdict g verdict r)) :=
      liveJob_of_job (job_of_one (r := givenBack (withVerdict g verdict r)) recs) progress
    simp [Works.testRound, live, givenBack, Gathering.none]
  have reached : (withJob r w).answerFrame e f r.tag [(g.zone, v)]
      = (withJob (withVerdict g verdict r) w).losesZone e r.tag .zoneLost := by
    simp only [Works.answerFrame, liveJob_withJob rfl progress, stops, Bool.false_eq_true, if_false, List.foldl_cons,
      List.foldl_nil]
    rw [verdictReaches_of_wanted rfl progress (by simp [phase, GatherPhase.asks]) grants wanted, taken, settled]
  rw [reached]
  exact settle_zoneLost (r := withVerdict g verdict r) rested progress (by simp [withVerdict, regather, state])
    (by simpa [withVerdict, regather] using distant) ending

end

/-- What ZONE_REVOKE does with a frame of one entry. -/
theorem effect_zoneRevoke {s : State} {f : Frame} {rest : List Frame} {zone tag : Nat} {reason : Reason}
    (head : s.passes f rest) (payload : f.payload = .zoneRevoke [{ zone := zone, tag := tag, reason := reason }]) :
    effect .zoneRevoke s.node = { s.node with ws := (s.taken rest).takeRevocation s.env tag zone reason } :=
  effect_of_passes (c := .zoneRevoke) rfl head (g := onWorks fun e w => w.takeRevocation e tag zone reason)
    (by simp [actZoneRevoke, payload])

/-- Settles O46: the revocation by whether the zone is required and to whom it is lost, the answer as a loss. -/
theorem revocationsReachTheJob : Obligations.RevocationsReachTheJob := by
  refine ⟨?revoked, ?answered⟩
  case revoked =>
    intro s f rest r g reason rested head payload one state phase grants wanted distant
    have progress : r.state.inProgress = true := by simp [state, JobState.inProgress]
    have away : ∀ x ∈ r.gathering.grants, x.home ≠ .local := by simpa [grants] using distant
    have effect := effect_zoneRevoke head payload
    have taken := takeRevocation_of_wanted (e := s.env) (w := s.taken rest) reason progress
      (by simp [phase, GatherPhase.asks]) grants wanted
    rw [withJob_of_one (w := s.taken rest) one] at taken
    refine ⟨fun optional => ?_, fun required preempted ending retries => ?_, fun required other ending => ?_⟩
    · rw [taken, if_neg (by simp [optional]), ← withJob_of_one (w := s.taken rest) one, modGrants_withJob rfl grants] at effect
      have missed : (withJob (withVerdict g .dropped r) (s.taken rest)).missed r.tag
          = withJob { withVerdict g .dropped r with flags := { r.flags with optionalMissed := true } } (s.taken rest) :=
        flag_withJob (r := withVerdict g .dropped r) rfl _ _
      rw [missed] at effect
      rw [exec_of_effect_rested effect rested]
      simp only [withVerdict, regather]
      rfl
    · rw [taken, if_pos required, if_pos preempted, ← withJob_of_one (w := s.taken rest) one] at effect
      have recs := settle_preempted (e := s.env) (w := s.taken rest) rested progress (by simp [state]) away ending retries
      exact ⟨_, _, exec_of_effect effect, recs, rfl, rfl, rfl, rfl, rfl, rfl⟩
    · rw [taken, if_pos required, if_neg other, ← withJob_of_one (w := s.taken rest) one] at effect
      have recs := settle_zoneLost (e := s.env) (w := s.taken rest) rested progress (by simp [state]) away ending
      exact ⟨_, exec_of_effect effect, recs, rfl⟩
  case answered =>
    intro s f rest r g v rested head payload one state phase ending grants required granted distant refused
    have effect := effect_zoneAnswer head payload
    have recs := settle_answerFrame_of_airing (e := s.env) (f := f) (w := s.taken rest) rested state phase ending grants required
      granted distant refused
    rw [← withJob_of_one (w := s.taken rest) one] at effect
    exact ⟨_, exec_of_effect effect, recs, rfl⟩

end Sys2Proof.Proofs.StartAndLoss
end


section
/-! The frames of the station line, built and decoded (chapter 11): the codes and numbers payloads are made of, each
payload of Tables 11-3 to 11-9, and the header and check around it (R187 to R189). -/

namespace Sys2Proof.Proofs.FrameCodec

open Sys2Proof Sys2Proof.Machine

/-! ### Numbers and flags in bytes -/

/-- Three bytes hold their number. -/
theorem of_num3 (n : Nat) : n / 65536 * 65536 + n / 256 % 256 * 256 + n % 256 = n := by omega

/-- Two bytes hold their number. -/
theorem of_num2 (n : Nat) : n / 256 * 256 + n % 256 = n := by omega

theorem bit_le_one (b : Bool) : bit b ≤ 1 := by cases b <;> decide

@[simp] theorem decide_bit (b : Bool) : decide (bit b = 1) = b := by cases b <;> rfl

/-- A list of bytes as a payload may hold it. -/
def payloadOk (l : List Nat) : Prop := bytesOk l ∧ l.length ≤ 60

theorem bytesOk_nil : bytesOk [] := List.forall_mem_nil _

theorem bytesOk_cons {b : Nat} {l : List Nat} (h : b < 256) (k : bytesOk l) : bytesOk (b :: l) :=
  List.forall_mem_cons.mpr ⟨h, k⟩

theorem bytesOk_append {l m : List Nat} (h : bytesOk l) (k : bytesOk m) : bytesOk (l ++ m) :=
  fun b at_ => (List.mem_append.mp at_).elim (h b) (k b)

theorem bytesOk_num2 {n : Nat} (h : n < 65536) : bytesOk (num2 n) :=
  bytesOk_cons (by omega) (bytesOk_cons (by omega) bytesOk_nil)

theorem bytesOk_num3 {n : Nat} (h : n < 16777216) : bytesOk (num3 n) :=
  bytesOk_cons (by omega) (bytesOk_cons (by omega) (bytesOk_cons (by omega) bytesOk_nil))

theorem bytesOk_of_zones {l : List Nat} (h : zonesOk l) : bytesOk l := fun z at_ => by
  obtain ⟨-, le⟩ := h z at_
  omega

theorem bytesOk_flatten {α : Type} {f : α → List Nat} {l : List α} (h : ∀ a ∈ l, bytesOk (f a)) :
    bytesOk (l.map f).flatten := by
  intro b at_
  obtain ⟨m, listed, here⟩ := List.mem_flatten.mp at_
  obtain ⟨a, member, rfl⟩ := List.mem_map.mp listed
  exact h a member b here

theorem length_flatten_of_const {α : Type} {f : α → List Nat} {k : Nat} (l : List α) (h : ∀ a, (f a).length = k) :
    (l.map f).flatten.length = k * l.length := by
  induction l with
  | nil => rfl
  | cons a l ih =>
    simp only [List.map_cons, List.flatten_cons, List.length_append, ih, h, List.length_cons]
    ring

theorem zonesInRange_of_ok {l : List Nat} (h : zonesOk l) : zonesInRange l = true :=
  List.all_eq_true.mpr fun z at_ => decide_eq_true (h z at_)

/-! ### Codes (Table 11-8) -/

theorem decodeReason_code (r : Reason) : decodeReason r.code = some r := by cases r <;> rfl

theorem decodeOriginKind_code (o : OriginKind) : decodeOriginKind o.code = some o := by cases o <;> rfl

theorem decodeCode_number (c : Code) : decodeCode c.number = some c := by cases c <;> rfl

theorem decodeNodeKind_code (k : NodeKind) : decodeNodeKind k.code = some k := by cases k <;> rfl

theorem decodeCallKind_code (k : CallKind) : decodeCallKind k.code = some k := by cases k <;> rfl

theorem reason_code_lt (r : Reason) : r.code < 256 := by cases r <;> decide

theorem originKind_code_le (o : OriginKind) : o.code ≤ 8 := by cases o <;> decide

theorem code_number_lt (c : Code) : c.number < 256 := by cases c <;> decide

theorem nodeKind_code_lt (k : NodeKind) : k.code < 256 := by cases k <;> decide

theorem callKind_code_le (k : CallKind) : k.code ≤ 3 := by cases k <;> decide

/-! ### Short payloads (Table 11-3) -/

theorem decodeTime_encode {day second : Nat} (h : second < 86400) :
    decodeTime (encodePayload (.time day second)) = some (.time day second) := by
  simp [encodePayload, num2, num3, decodeTime, of_num2, of_num3, h]

theorem decodeControl_encode {c : ControlBody} (h : ∀ face, c = .replayLast face → face ≤ 64) :
    decodeControl (encodePayload (.control c)) = some (.control c) := by
  cases c with
  | quiet | wake | serviceReset => rfl
  | replayLast face => simp [encodePayload, decodeControl, h face rfl]

theorem decodeSeize_encode {trunk tag hold : Nat} (ht : trunk ≤ 3) (hh : hold ≤ 250) :
    decodeSeize (encodePayload (.seize trunk tag hold)) = some (.seize trunk tag hold) := by
  simp [encodePayload, decodeSeize, ht, hh]

theorem decodeFree_encode {trunk tag : Nat} (ht : trunk ≤ 3) :
    decodeFree (encodePayload (.free trunk tag)) = some (.free trunk tag) := by
  simp [encodePayload, decodeFree, ht]

/-! ### Zone payloads (Table 11-7) -/

theorem decodeZoneAsk_encode {tag trunk duration : Nat} {zones : List Nat} (ht : trunk ≤ 3) (hd : duration ≤ 250)
    (some : 1 ≤ zones.length) (few : zones.length ≤ 16) (ok : zonesOk zones) :
    decodeZoneAsk (encodePayload (.zoneAsk tag trunk duration zones)) = .some (.zoneAsk tag trunk duration zones) := by
  simp [encodePayload, decodeZoneAsk, ht, hd, some, few, zonesInRange_of_ok ok]

theorem decodeZoneLeave_encode {tag : Nat} {zones : List Nat} (some : 1 ≤ zones.length) (few : zones.length ≤ 16)
    (ok : zonesOk zones) : decodeZoneLeave (encodePayload (.zoneLeave tag zones)) = .some (.zoneLeave tag zones) := by
  simp [encodePayload, decodeZoneLeave, some, few, zonesInRange_of_ok ok]

theorem length_encodeVerdict (v : Verdict) : (encodeVerdict v).length = 2 := by cases v <;> rfl

/-- A verdict's two bytes after its zone, taken apart again. -/
theorem decodeVerdicts_cons {zone : Nat} {v : Verdict} {rest : List Nat} {l : List (Nat × Verdict)} (low : 1 ≤ zone)
    (high : zone ≤ 254) (ok : v.inRange) (tail : decodeVerdicts rest = some l) :
    decodeVerdicts (zone :: encodeVerdict v ++ rest) = some ((zone, v) :: l) := by
  cases v with
  | granted ready mark =>
    have limit : ready ≤ 2000 := ok
    have one := bit_le_one mark
    have code : (16 + 8 * bit mark + ready / 256) / 16 = 1 := by omega
    have flag : (16 + 8 * bit mark + ready / 256) / 8 % 2 = bit mark := by omega
    have value : (16 + 8 * bit mark + ready / 256) % 8 * 256 + ready % 256 = ready := by omega
    simp [encodeVerdict, decodeVerdicts, code, flag, value, decodeVerdict, limit, tail, low, high]
  | queued position =>
    obtain ⟨first, last⟩ : 1 ≤ position ∧ position ≤ 6 := ok
    simp [encodeVerdict, decodeVerdicts, decodeVerdict, first, last, tail, low, high]
  | denied d => cases d <;> simp [encodeVerdict, decodeVerdicts, decodeVerdict, Denial.code, tail, low, high]

theorem decodeVerdicts_encode {l : List (Nat × Verdict)} (ok : ∀ v ∈ l, 1 ≤ v.1 ∧ v.1 ≤ 254 ∧ v.2.inRange) :
    decodeVerdicts (l.map (fun v => v.1 :: encodeVerdict v.2)).flatten = some l := by
  induction l with
  | nil => rfl
  | cons v l ih =>
    obtain ⟨⟨low, high, range⟩, later⟩ := List.forall_mem_cons.mp ok
    exact decodeVerdicts_cons low high range (ih later)

theorem bytesOk_verdict {v : Nat × Verdict} (ok : 1 ≤ v.1 ∧ v.1 ≤ 254 ∧ v.2.inRange) :
    bytesOk (v.1 :: encodeVerdict v.2) := by
  obtain ⟨zone, verdict⟩ := v
  obtain ⟨-, high, range⟩ := ok
  refine bytesOk_cons (Nat.lt_of_le_of_lt high (by decide)) ?_
  cases verdict with
  | granted ready mark =>
    have limit : ready ≤ 2000 := range
    have one := bit_le_one mark
    exact bytesOk_cons (by omega) (bytesOk_cons (by omega) bytesOk_nil)
  | queued position =>
    obtain ⟨-, last⟩ : 1 ≤ position ∧ position ≤ 6 := range
    exact bytesOk_cons (by decide) (bytesOk_cons (by omega) bytesOk_nil)
  | denied d => cases d <;> exact bytesOk_cons (by decide) (bytesOk_cons (by decide) bytesOk_nil)

theorem decodeZoneAnswer_encode {tag : Nat} {l : List (Nat × Verdict)} (some : 1 ≤ l.length) (few : l.length ≤ 8)
    (ok : ∀ v ∈ l, 1 ≤ v.1 ∧ v.1 ≤ 254 ∧ v.2.inRange) :
    decodeZoneAnswer (encodePayload (.zoneAnswer tag l)) = .some (.zoneAnswer tag l) := by
  simp [encodePayload, decodeZoneAnswer, decodeVerdicts_encode ok, some, few]

theorem decodeRevokes_encode {l : List RevokeEntry} (ok : ∀ x ∈ l, 1 ≤ x.zone ∧ x.zone ≤ 254 ∧ x.tag < 256) :
    decodeRevokes (l.map (fun e => [e.zone, e.tag, e.reason.code])).flatten = some l := by
  induction l with
  | nil => rfl
  | cons x l ih =>
    obtain ⟨⟨low, high, -⟩, later⟩ := List.forall_mem_cons.mp ok
    simp [decodeRevokes, decodeReason_code, ih later, low, high]

theorem decodeZoneRevoke_encode {l : List RevokeEntry} (some : 1 ≤ l.length) (few : l.length ≤ 16)
    (ok : ∀ x ∈ l, 1 ≤ x.zone ∧ x.zone ≤ 254 ∧ x.tag < 256) :
    decodeZoneRevoke (encodePayload (.zoneRevoke l)) = .some (.zoneRevoke l) := by
  simp [encodePayload, decodeZoneRevoke, decodeRevokes_encode ok, some, few]

/-! ### PROFILE (Table 11-6) -/

theorem decodeProfile_encode {p : ProfileBody} {source : Nat} (ok : p.inRange source) :
    decodeProfile source (encodePayload (.profile p)) = some (.profile p) := by
  obtain ⟨node, -, trunks, few, few', faces, zones⟩ := ok
  have request := bit_le_one p.request
  have recovered := bit_le_one p.recovered
  have key : (128 * bit p.request + 64 * bit p.recovered + p.trunks) / 16 % 4 = 0
      ∧ (128 * bit p.request + 64 * bit p.recovered + p.trunks) / 128 = bit p.request
      ∧ (128 * bit p.request + 64 * bit p.recovered + p.trunks) / 64 % 2 = bit p.recovered
      ∧ (128 * bit p.request + 64 * bit p.recovered + p.trunks) % 16 = p.trunks := by omega
  obtain ⟨spare, first, second, low⟩ := key
  have numbered : p.faces.all (fun x => decide (1 ≤ x ∧ x ≤ 64)) = true :=
    List.all_eq_true.mpr fun f at_ => decide_eq_true (faces f at_)
  subst node
  simp [encodePayload, decodeProfile, decodeNodeKind_code, spare, first, second, low, few, few', zonesInRange_of_ok zones]
  simpa using numbered

/-! ### JOB-REPORT (Table 11-9) -/

theorem encodeReportRef_kind_le (r : ReportRef) : (encodeReportRef r).1 ≤ 5 := by cases r <;> simp [encodeReportRef]

theorem decodeFlags_encode (d : Degraded) : decodeFlags (encodeFlags d) = some d := by
  have h1 := bit_le_one d.phraseSkipped
  have h2 := bit_le_one d.underrun
  have h3 := bit_le_one d.truncated
  have h4 := bit_le_one d.optionalMissed
  have h5 := bit_le_one d.zoneFaulted
  have h6 := bit_le_one d.clampedTime
  have parts : encodeFlags d % 4 = 0 ∧ encodeFlags d / 128 = bit d.phraseSkipped ∧ encodeFlags d / 64 % 2 = bit d.underrun
      ∧ encodeFlags d / 32 % 2 = bit d.truncated ∧ encodeFlags d / 16 % 2 = bit d.optionalMissed
      ∧ encodeFlags d / 8 % 2 = bit d.zoneFaulted ∧ encodeFlags d / 4 % 2 = bit d.clampedTime := by
    unfold encodeFlags
    omega
  obtain ⟨spare, p1, p2, p3, p4, p5, p6⟩ := parts
  simp [decodeFlags, spare, p1, p2, p3, p4, p5, p6]

theorem encodeFlags_lt (d : Degraded) : encodeFlags d < 256 := by
  have h1 := bit_le_one d.phraseSkipped
  have h2 := bit_le_one d.underrun
  have h3 := bit_le_one d.truncated
  have h4 := bit_le_one d.optionalMissed
  have h5 := bit_le_one d.zoneFaulted
  have h6 := bit_le_one d.clampedTime
  unfold encodeFlags
  omega

/-- The three bytes of a reference, taken apart again. -/
theorem decodeReportRef_encode {r : ReportRef} (ok : r.inRange) :
    ∃ a b c, (encodeReportRef r).2 = [a, b, c] ∧ a < 256 ∧ b < 256 ∧ c < 256
      ∧ decodeReportRef (encodeReportRef r).1 a b c = some r := by
  cases r with
  | call id =>
    have range : id < 16777216 := ok
    exact ⟨_, _, _, rfl, by omega, by omega, by omega, by simp [decodeReportRef, encodeReportRef, of_num3]⟩
  | face f =>
    obtain ⟨low, high⟩ : 1 ≤ f ∧ f ≤ 64 := ok
    exact ⟨_, _, _, rfl, by omega, by omega, by omega, by simp [decodeReportRef, encodeReportRef, low, high]⟩
  | console n q =>
    obtain ⟨low, high, request⟩ : 1 ≤ n ∧ n ≤ 63 ∧ q < 256 := ok
    exact ⟨_, _, _, rfl, by omega, by omega, request, by simp [decodeReportRef, encodeReportRef, low, high]⟩
  | input n =>
    have high : n ≤ 1 := ok
    exact ⟨_, _, _, rfl, by omega, by omega, by omega, by simp [decodeReportRef, encodeReportRef, high]⟩
  | replay f =>
    have high : f ≤ 64 := ok
    exact ⟨_, _, _, rfl, by omega, by omega, by omega, by simp [decodeReportRef, encodeReportRef, high]⟩

/-- The two bytes of a report's content, taken apart again. -/
theorem decodeReportContent_encode {c : ReportContent} (ok : c.inRange) :
    ∃ k n, encodeReportContent c = [k, n] ∧ k < 256 ∧ n < 256 ∧ decodeReportContent k n = some c := by
  cases c with
  | template n | phrases n => exact ⟨_, n, rfl, by omega, ok, rfl⟩
  | none n =>
    obtain rfl : n = 0 := ok
    exact ⟨_, _, rfl, by omega, by omega, rfl⟩

theorem jobReport_codec {r : ReportBody} (ok : r.inRange) :
    decodeJobReport (encodePayload (.jobReport r)) = some (.jobReport r) ∧ payloadOk (encodePayload (.jobReport r)) := by
  obtain ⟨tag, ref, content, airings, zonesAired, remaining⟩ := ok
  obtain ⟨a, b, c, bytes, ha, hb, hc, names⟩ := decodeReportRef_encode ref
  obtain ⟨k, n, pair, hk, hn, holds⟩ := decodeReportContent_encode content
  have kind := encodeReportRef_kind_le r.ref
  have origin := originKind_code_le r.origin
  have high : (16 * r.origin.code + (encodeReportRef r.ref).1) / 16 = r.origin.code := by omega
  have low : (16 * r.origin.code + (encodeReportRef r.ref).1) % 16 = (encodeReportRef r.ref).1 := by omega
  have code := code_number_lt r.code
  have flags := encodeFlags_lt r.flags
  constructor
  · simp [encodePayload, bytes, pair, decodeJobReport, high, low, decodeOriginKind_code, names, holds, decodeCode_number,
      decodeFlags_encode]
  · simp only [encodePayload, bytes, pair]
    refine ⟨?_, by simp⟩
    simp only [bytesOk, List.cons_append, List.nil_append, List.forall_mem_cons, List.not_mem_nil, false_implies,
      implies_true, and_true]
    omega

/-! ### FAULT and STATUS (Table 11-9) -/

/-- The condition bits of a FAULT payload. -/
def faultBits (s : FaultSet) : Nat :=
  128 * bit s.flashPort + 64 * bit s.safeConfig + 32 * bit s.isolatedRecovered + 16 * bit s.clockUnknown

theorem faultBits_parts (s : FaultSet) :
    faultBits s < 256 ∧ faultBits s % 16 = 0 ∧ faultBits s / 128 = bit s.flashPort ∧ faultBits s / 64 % 2 = bit s.safeConfig
      ∧ faultBits s / 32 % 2 = bit s.isolatedRecovered ∧ faultBits s / 16 % 2 = bit s.clockUnknown := by
  have h1 := bit_le_one s.flashPort
  have h2 := bit_le_one s.safeConfig
  have h3 := bit_le_one s.isolatedRecovered
  have h4 := bit_le_one s.clockUnknown
  unfold faultBits
  omega

theorem encodeFault_eq (f : FaultBody) :
    encodeFault f =
      f.seq :: faultBits f.set :: f.set.zoneLine.length :: (f.set.zoneLine ++ (f.set.sensor.length :: f.set.sensor)) := by
  simp [encodeFault, faultBits]

/-- The FAULT payload, taken from before whatever follows it. -/
theorem decodeFaultPart_encode {f : FaultBody} (ok : f.inRange) (tail : List Nat) :
    decodeFaultPart (encodeFault f ++ tail) = some (f, tail) := by
  obtain ⟨-, few, few', -, -⟩ := ok
  obtain ⟨-, spare, p1, p2, p3, p4⟩ := faultBits_parts f.set
  simp [encodeFault_eq, decodeFaultPart, spare, p1, p2, p3, p4, few, few']

theorem encodeFault_ok {f : FaultBody} (ok : f.inRange) : bytesOk (encodeFault f) ∧ (encodeFault f).length ≤ 20 := by
  obtain ⟨seq, few, few', lines, sensors⟩ := ok
  obtain ⟨small, -⟩ := faultBits_parts f.set
  rw [encodeFault_eq]
  refine ⟨bytesOk_cons seq (bytesOk_cons small (bytesOk_cons (by omega)
    (bytesOk_append lines (bytesOk_cons (by omega) sensors)))), ?_⟩
  simp only [List.length_cons, List.length_append]
  omega

theorem fault_codec {f : FaultBody} (ok : f.inRange) :
    decodeFault (encodePayload (.fault f)) = some (.fault f) ∧ payloadOk (encodePayload (.fault f)) := by
  have part := decodeFaultPart_encode ok []
  rw [List.append_nil] at part
  obtain ⟨bytes, short⟩ := encodeFault_ok ok
  exact ⟨by simp only [decodeFault, encodePayload, part], bytes, short.trans (by decide)⟩

theorem decodeCounters_encode (l : List Nat) : decodeCounters (l.map num2).flatten = l := by
  induction l with
  | nil => rfl
  | cons n l ih => simp [num2, decodeCounters, of_num2, ih]

theorem length_num2s (l : List Nat) : (l.map num2).flatten.length = 2 * l.length :=
  length_flatten_of_const l fun _ => rfl

theorem status_codec {s : StatusBody} (ok : (Payload.status s).inRange 0) :
    decodeStatus (encodePayload (.status s)) = some (.status s) ∧ payloadOk (encodePayload (.status s)) := by
  obtain ⟨low, high, fault, sixteen, counters⟩ := ok
  have part := decodeFaultPart_encode fault (s.counters.map num2).flatten
  obtain ⟨bytes, short⟩ := encodeFault_ok fault
  have one := bit_le_one s.safe
  have parts : 128 * bit s.safe % 128 = 0 ∧ 128 * bit s.safe / 128 = bit s.safe := by omega
  have length := length_num2s s.counters
  refine ⟨?_, ?_, ?_⟩
  · simp only [encodePayload, List.cons_append, List.nil_append, decodeStatus, part, low, high, parts, length, sixteen,
      decodeCounters_encode, decide_bit, and_self, if_true]
  · exact bytesOk_cons (by omega) (bytesOk_cons (by omega)
      (bytesOk_append bytes (bytesOk_flatten fun n at_ => bytesOk_num2 (counters n at_))))
  · simp only [encodePayload, List.length_append, List.length_cons, List.length_nil, length, sixteen]
    omega

/-! ### CALL (Table 11-4) -/

theorem decodePhrasePairs_encode {l : List Nat} (ok : phrasesOk l) : decodePhrasePairs (l.map num2).flatten = some l := by
  induction l with
  | nil => rfl
  | cons n l ih =>
    obtain ⟨le, later⟩ := List.forall_mem_cons.mp ok
    simp [num2, decodePhrasePairs, of_num2, ih later, le]

/-- An optional value is its present bit and its number, or 0. -/
theorem optionalIn_getD {o : Option Nat} {limit : Nat} (ok : ∀ t ∈ o, t ≤ limit) :
    optionalIn o.isSome (o.getD 0) limit = some o := by
  cases o with
  | none => rfl
  | some t => simp [optionalIn, ok t rfl]

theorem signed16_unsigned16 {i : Int} (low : -32768 ≤ i) (high : i ≤ 32767) : signed16 (unsigned16 i) = i := by
  unfold signed16 unsigned16
  split <;> omega

theorem unsigned16_lt (i : Int) : unsigned16 i < 65536 := by
  unfold unsigned16
  omega

/-- The byte of a CALL payload that holds kind, cancellation and present bits. -/
def callKey (c : CallBody) : Nat :=
  64 * c.kind.code + 32 * bit c.cancelled + 16 * bit c.sArr.isSome + 8 * bit c.sDep.isSome + 4 * bit c.delay.isSome

theorem callKey_parts (c : CallBody) :
    callKey c < 256 ∧ callKey c / 64 = c.kind.code ∧ callKey c / 32 % 2 = bit c.cancelled
      ∧ callKey c / 16 % 2 = bit c.sArr.isSome ∧ callKey c / 8 % 2 = bit c.sDep.isSome
      ∧ callKey c / 4 % 2 = bit c.delay.isSome ∧ callKey c % 4 = 0 := by
  have h0 := callKind_code_le c.kind
  have h1 := bit_le_one c.cancelled
  have h2 := bit_le_one c.sArr.isSome
  have h3 := bit_le_one c.sDep.isSome
  have h4 := bit_le_one c.delay.isSome
  unfold callKey
  omega

/-- A time of a call is present only where its kind has it. -/
theorem held_of_present {o : Option Nat} {limit : Nat} {has : Bool} (ok : ∀ t ∈ o, t ≤ limit ∧ has = true) :
    (if has = true then o else none) = o := by
  cases o with
  | none => simp
  | some t => simp [(ok t rfl).2]

theorem delay_codec {o : Option Int} (ok : ∀ d ∈ o, -32768 ≤ d ∧ d ≤ 32767) :
    (if bit o.isSome = 1 then some (signed16 (unsigned16 (o.getD 0))) else none) = o := by
  cases o with
  | none => rfl
  | some d => simp [bit, signed16_unsigned16 (ok d rfl).1 (ok d rfl).2]

theorem prev_codec {o : Option Nat} (ok : ∀ f ∈ o, 1 ≤ f ∧ f ≤ 64) :
    o.getD 0 ≤ 64 ∧ (if o.getD 0 = 0 then none else some (o.getD 0)) = o := by
  cases o with
  | none => simp
  | some f =>
    obtain ⟨low, high⟩ := ok f rfl
    exact ⟨high, if_neg (by simp; omega)⟩

theorem encodeCall_eq (c : CallBody) :
    encodeCall c = num3 c.id ++ [c.rev] ++ num2 c.day ++ [c.face, c.prev.getD 0, callKey c] ++ num3 (c.sArr.getD 0)
      ++ num3 (c.sDep.getD 0) ++ num2 (unsigned16 (c.delay.getD 0)) ++ num2 c.dest ++ num2 c.origin
      ++ num2 c.operator ++ [c.formation, c.points.length] ++ (c.points.map num2).flatten := rfl

theorem decodeCall_encode {c : CallBody} (ok : c.inRange) : decodeCall (encodeCall c) = some (.call c) := by
  obtain ⟨-, -, -, low, high, prev, arr, dep, delay, dest, origin, operator, formation, few, points⟩ := ok
  obtain ⟨-, kind, cancelled, hasArr, hasDep, hasDelay, spare⟩ := callKey_parts c
  obtain ⟨prevLe, prevIs⟩ := prev_codec prev
  have arrIs := optionalIn_getD (fun t at_ => (arr t at_).1)
  have depIs := optionalIn_getD (fun t at_ => (dep t at_).1)
  rw [encodeCall_eq]
  simp only [num3, num2, List.cons_append, List.nil_append, decodeCall, kind, decodeCallKind_code, hasArr,
    hasDep, hasDelay, of_num3, of_num2, arrIs, depIs, decodePhrasePairs_encode points, low, high, prevLe, spare, dest, origin,
    operator, formation, few, and_self, if_true, prevIs, cancelled, decide_bit, held_of_present arr, held_of_present dep,
    delay_codec delay]

theorem encodeCall_ok {c : CallBody} (ok : c.inRange) : payloadOk (encodeCall c) := by
  obtain ⟨id, rev, day, -, high, prev, arr, dep, delay, dest, origin, operator, formation, few, points⟩ := ok
  obtain ⟨key, -⟩ := callKey_parts c
  obtain ⟨prevLe, -⟩ := prev_codec prev
  have small {o : Option Nat} {has : Bool} (h : ∀ t ∈ o, t ≤ 107999 ∧ has = true) : o.getD 0 < 16777216 := by
    cases o with
    | none => decide
    | some t => exact Nat.lt_of_le_of_lt (h t rfl).1 (by decide)
  rw [encodeCall_eq]
  refine ⟨?_, ?_⟩
  · refine bytesOk_append (bytesOk_append (bytesOk_append (bytesOk_append (bytesOk_append (bytesOk_append (bytesOk_append
      (bytesOk_append (bytesOk_append (bytesOk_append (bytesOk_append (bytesOk_num3 id) ?_) (bytesOk_num2 day)) ?_)
      (bytesOk_num3 (small arr))) (bytesOk_num3 (small dep))) (bytesOk_num2 (unsigned16_lt _))) (bytesOk_num2 (by omega)))
      (bytesOk_num2 (by omega))) (bytesOk_num2 (by omega))) ?_) (bytesOk_flatten fun n at_ => bytesOk_num2 ?_)
    · exact bytesOk_cons rev bytesOk_nil
    · exact bytesOk_cons (by omega) (bytesOk_cons (by omega) (bytesOk_cons key bytesOk_nil))
    · exact bytesOk_cons (by omega) (bytesOk_cons (by omega) bytesOk_nil)
    · exact Nat.lt_of_le_of_lt (points n at_) (by decide)
  · have length := length_num2s c.points
    simp only [List.length_append, length, num2, num3, List.length_cons, List.length_nil]
    omega

/-! ### ANNOUNCE (Table 11-5) -/

theorem length_packPhrases (l : List Nat) : 2 * (packPhrases l).length ≤ 3 * l.length + 1 := by
  induction l using packPhrases.induct with
  | case1 => simp [packPhrases]
  | case2 a => simp [packPhrases, num2]
  | case3 a b rest ih =>
    simp only [packPhrases, List.length_append, List.length_cons, List.length_nil]
    omega

theorem bytesOk_packPhrases {l : List Nat} (ok : phrasesOk l) : bytesOk (packPhrases l) := by
  induction l using packPhrases.induct with
  | case1 => exact bytesOk_nil
  | case2 a => exact bytesOk_num2 (Nat.lt_of_le_of_lt (ok a (List.mem_singleton_self a)) (by decide))
  | case3 a b rest ih =>
    obtain ⟨ha, hb, later⟩ : a ≤ 4095 ∧ b ≤ 4095 ∧ phrasesOk rest := by
      obtain ⟨ha, more⟩ := List.forall_mem_cons.mp ok
      obtain ⟨hb, later⟩ := List.forall_mem_cons.mp more
      exact ⟨ha, hb, later⟩
    exact bytesOk_append (bytesOk_cons (by omega) (bytesOk_cons (by omega) (bytesOk_cons (by omega) bytesOk_nil))) (ih later)

theorem unpackPhrases_pack {l : List Nat} (ok : phrasesOk l) (tail : List Nat) :
    unpackPhrases l.length (packPhrases l ++ tail) = some (l, tail) := by
  induction l using packPhrases.induct with
  | case1 => rfl
  | case2 a =>
    have ha : a ≤ 4095 := ok a (List.mem_singleton_self a)
    have small : a / 256 < 16 := by omega
    simp [packPhrases, num2, unpackPhrases, small, of_num2]
  | case3 a b rest ih =>
    obtain ⟨ha, hb, later⟩ : a ≤ 4095 ∧ b ≤ 4095 ∧ phrasesOk rest := by
      obtain ⟨ha, more⟩ := List.forall_mem_cons.mp ok
      obtain ⟨hb, later⟩ := List.forall_mem_cons.mp more
      exact ⟨ha, hb, later⟩
    have first : a / 16 * 16 + (a % 16 * 16 + b / 256) / 16 = a := by omega
    have second : b / 256 % 16 * 256 + b % 256 = b := by omega
    simp [packPhrases, unpackPhrases, ih later, first, second]

theorem encodeMatch_le (m : Option CallMatch) : (encodeMatch m).1 ≤ 3 ∧ (encodeMatch m).2.length ≤ 4 := by
  rcases m with - | (_ | _ | _) <;> simp [encodeMatch, num3]

theorem bytesOk_encodeMatch {m : Option CallMatch} (ok : ∀ x ∈ m, x.inRange) : bytesOk (encodeMatch m).2 := by
  rcases m with - | (⟨f, i⟩ | ⟨f, t⟩ | ⟨f, t⟩)
  · exact bytesOk_nil
  · obtain ⟨hf, hi⟩ : f ≤ 64 ∧ i < 16777216 := ok _ rfl
    exact bytesOk_cons (by omega) (bytesOk_num3 hi)
  · obtain ⟨hf, ht⟩ : f ≤ 64 ∧ t ≤ 107999 := ok _ rfl
    exact bytesOk_cons (by omega) (bytesOk_num3 (by omega))
  · obtain ⟨hf, ht⟩ : f ≤ 64 ∧ t ≤ 107999 := ok _ rfl
    exact bytesOk_cons (by omega) (bytesOk_num3 (by omega))

theorem decodeMatch_encode {m : Option CallMatch} (ok : ∀ x ∈ m, x.inRange) (tail : List Nat) :
    decodeMatch (encodeMatch m).1 ((encodeMatch m).2 ++ tail) = some (m, tail) := by
  rcases m with - | (⟨f, i⟩ | ⟨f, t⟩ | ⟨f, t⟩)
  · rfl
  · obtain ⟨hf, -⟩ : f ≤ 64 ∧ i < 16777216 := ok _ rfl
    simp [encodeMatch, num3, decodeMatch, of_num3, hf]
  · obtain ⟨hf, ht⟩ : f ≤ 64 ∧ t ≤ 107999 := ok _ rfl
    simp [encodeMatch, num3, decodeMatch, of_num3, hf, ht]
  · obtain ⟨hf, ht⟩ : f ≤ 64 ∧ t ≤ 107999 := ok _ rfl
    simp [encodeMatch, num3, decodeMatch, of_num3, hf, ht]

/-- The bytes of a not-before. -/
def notBeforeBytes (o : Option Nat) : List Nat := match o with | some s => num3 s | none => []

theorem decodeNotBefore_encode {o : Option Nat} (ok : ∀ t ∈ o, t ≤ 107999) (tail : List Nat) :
    decodeNotBefore o.isSome (notBeforeBytes o ++ tail) = some (o, tail) := by
  cases o with
  | none => rfl
  | some t => simp [decodeNotBefore, notBeforeBytes, num3, of_num3, ok t rfl]

/-- The content's bit, its number and its bytes. -/
def contentKind (c : Content) : Nat := match c with | .template _ => 0 | .phrases _ => 1

def contentNumber (c : Content) : Nat := match c with | .template t => t | .phrases ps => ps.length

def contentBytes (c : Content) : List Nat := match c with | .template _ => [] | .phrases ps => packPhrases ps

theorem content_facts {c : Content} (ok : c.inRange) :
    contentKind c ≤ 1 ∧ contentNumber c < 256 ∧ (contentBytes c).length ≤ 24 ∧ bytesOk (contentBytes c) := by
  cases c with
  | template t => exact ⟨Nat.zero_le _, ok, Nat.zero_le _, bytesOk_nil⟩
  | phrases ps =>
    obtain ⟨-, few, phrases⟩ : 1 ≤ ps.length ∧ ps.length ≤ 16 ∧ phrasesOk ps := ok
    have length := length_packPhrases ps
    exact ⟨le_rfl, by simp only [contentNumber]; omega, by simp only [contentBytes]; omega, bytesOk_packPhrases phrases⟩

theorem decodeContent_encode {c : Content} (ok : c.inRange) (tail : List Nat) :
    decodeContent (decide (contentKind c = 1)) (contentNumber c) (contentBytes c ++ tail) = some (c, tail) := by
  cases c with
  | template t => rfl
  | phrases ps =>
    obtain ⟨one, few, phrases⟩ : 1 ≤ ps.length ∧ ps.length ≤ 16 ∧ phrasesOk ps := ok
    simp [decodeContent, contentKind, contentNumber, contentBytes, one, few, unpackPhrases_pack phrases]

/-- The byte of an ANNOUNCE payload that holds content kind, match mode and present bit. -/
def announceKey (a : AnnounceBody) : Nat :=
  128 * contentKind a.content + 32 * (encodeMatch a.callMatch).1 + 16 * bit a.notBefore.isSome

theorem announceKey_parts {a : AnnounceBody} (ok : a.content.inRange) :
    announceKey a < 256 ∧ announceKey a / 32 % 4 = (encodeMatch a.callMatch).1
      ∧ announceKey a / 16 % 2 = bit a.notBefore.isSome ∧ announceKey a / 128 = contentKind a.content
      ∧ announceKey a % 16 = 0 := by
  obtain ⟨kind, -⟩ := content_facts ok
  obtain ⟨mode, -⟩ := encodeMatch_le a.callMatch
  have one := bit_le_one a.notBefore.isSome
  unfold announceKey
  omega

theorem encodeAnnounce_eq (a : AnnounceBody) :
    encodeAnnounce a = [a.request, announceKey a, contentNumber a.content, 64 * a.reps + a.gap, a.required.length,
        a.optional.length]
      ++ ((encodeMatch a.callMatch).2 ++ (notBeforeBytes a.notBefore ++ (contentBytes a.content ++ (a.required ++ a.optional)))) := by
  unfold encodeAnnounce
  simp only [List.append_assoc]
  rfl

theorem decodeAnnounce_encode {a : AnnounceBody} (ok : a.inRange) : decodeAnnounce (encodeAnnounce a) = some (.announce a) := by
  obtain ⟨-, content, callMatch, notBefore, reps, low, high, zones, required, optional⟩ := ok
  obtain ⟨-, mode, present, kind, spare⟩ := announceKey_parts content
  have gap : (64 * a.reps + a.gap) % 64 = a.gap := by omega
  have count : (64 * a.reps + a.gap) / 64 = a.reps := by omega
  have few : a.required.length ≤ 16 := by omega
  have few' : a.optional.length ≤ 16 := by omega
  have all : zonesInRange (a.required ++ a.optional) = true :=
    zonesInRange_of_ok fun z at_ => (List.mem_append.mp at_).elim (required z) (optional z)
  rw [encodeAnnounce_eq]
  simp [decodeAnnounce, mode, present, kind, decodeMatch_encode callMatch, decodeNotBefore_encode notBefore,
    decodeContent_encode content, spare, gap, count, low, high, few, few', zones, all]

theorem encodeAnnounce_ok {a : AnnounceBody} (ok : a.inRange) : payloadOk (encodeAnnounce a) := by
  obtain ⟨request, content, callMatch, notBefore, reps, low, high, zones, required, optional⟩ := ok
  obtain ⟨key, -⟩ := announceKey_parts content
  obtain ⟨-, number, short, bytes⟩ := content_facts content
  obtain ⟨-, short'⟩ := encodeMatch_le a.callMatch
  have when : bytesOk (notBeforeBytes a.notBefore) ∧ (notBeforeBytes a.notBefore).length ≤ 3 := by
    cases moment : a.notBefore with
    | none => exact ⟨bytesOk_nil, by decide⟩
    | some t => exact ⟨bytesOk_num3 (Nat.lt_of_le_of_lt (notBefore t moment) (by decide)), le_rfl⟩
  rw [encodeAnnounce_eq]
  refine ⟨bytesOk_append ?_ (bytesOk_append (bytesOk_encodeMatch callMatch) (bytesOk_append when.1
    (bytesOk_append bytes (bytesOk_append (bytesOk_of_zones required) (bytesOk_of_zones optional))))), ?_⟩
  · simp only [bytesOk, List.forall_mem_cons, List.not_mem_nil, false_implies,
      implies_true, and_true]
    omega
  · have length := when.2
    simp only [List.length_append, List.length_cons, List.length_nil]
    omega

end Sys2Proof.Proofs.FrameCodec
end


section
/-! The whole frame (Table 11-1, R187): header, payload and check built into bytes and read back. -/

namespace Sys2Proof.Proofs.FrameOnTheLine

open Sys2Proof Sys2Proof.Machine Sys2Proof.Proofs.FrameCodec

/-! ### Payload by payload (Table 11-2) -/

/-- A payload in range fits its frame and decodes to itself. -/
theorem payload_codec {p : Payload} {source : Nat} (known : source ≤ 63) (ok : p.inRange source) :
    decodePayload p.kind source (encodePayload p) = some p ∧ payloadOk (encodePayload p) := by
  cases p with
  | time day second =>
    obtain ⟨hd, hs⟩ : day < 65536 ∧ second < 86400 := ok
    exact ⟨decodeTime_encode hs, bytesOk_append (bytesOk_num2 hd) (bytesOk_num3 (by omega)), by simp [encodePayload, num2, num3]⟩
  | call c => exact ⟨decodeCall_encode ok, encodeCall_ok ok⟩
  | announce a => exact ⟨decodeAnnounce_encode ok, encodeAnnounce_ok ok⟩
  | control c =>
    cases c with
    | quiet | wake | serviceReset => exact ⟨rfl, bytesOk_cons (by decide) bytesOk_nil, by decide⟩
    | replayLast face =>
      have hf : face ≤ 64 := ok
      refine ⟨decodeControl_encode (c := .replayLast face) fun f same => ?_,
        bytesOk_cons (by decide) (bytesOk_cons (by omega) bytesOk_nil), by simp [encodePayload]⟩
      cases same
      exact hf
  | statusQuery => exact ⟨rfl, bytesOk_nil, by decide⟩
  | profile b =>
    refine ⟨decodeProfile_encode ok, ?_⟩
    obtain ⟨node, revision, trunks, few, few', faces, zones⟩ := ok
    have one := bit_le_one b.request
    have one' := bit_le_one b.recovered
    have kind := nodeKind_code_lt b.kind
    refine ⟨bytesOk_append (bytesOk_append ?_ fun f at_ => ?_) (bytesOk_of_zones zones), ?_⟩
    · exact bytesOk_cons (by omega) (bytesOk_cons kind (bytesOk_cons revision (bytesOk_cons (by omega)
        (bytesOk_cons (by omega) (bytesOk_cons (by omega) bytesOk_nil)))))
    · have := (faces f at_).2
      omega
    · simp only [encodePayload, List.length_append, List.length_cons, List.length_nil]
      omega
  | seize trunk tag hold =>
    obtain ⟨ht, hg, hh⟩ : trunk ≤ 3 ∧ tag < 256 ∧ hold ≤ 250 := ok
    exact ⟨decodeSeize_encode ht hh, bytesOk_cons (by omega) (bytesOk_cons hg (bytesOk_cons (by omega) bytesOk_nil)), by simp [encodePayload]⟩
  | free trunk tag =>
    obtain ⟨ht, hg⟩ : trunk ≤ 3 ∧ tag < 256 := ok
    exact ⟨decodeFree_encode ht, bytesOk_cons (by omega) (bytesOk_cons hg bytesOk_nil), by simp [encodePayload]⟩
  | zoneAsk tag trunk duration zones =>
    obtain ⟨hg, ht, hd, one, few, zones⟩ := ok
    refine ⟨decodeZoneAsk_encode ht hd one few zones, ?_, ?_⟩
    · exact bytesOk_cons hg (bytesOk_cons (by omega) (bytesOk_cons (by omega) (bytesOk_cons (by omega) (bytesOk_of_zones zones))))
    · simp only [encodePayload, List.length_append, List.length_cons, List.length_nil]
      omega
  | zoneAnswer tag verdicts =>
    obtain ⟨hg, one, few, all⟩ := ok
    refine ⟨decodeZoneAnswer_encode one few all, ?_, ?_⟩
    · exact bytesOk_cons hg (bytesOk_cons (by omega) (bytesOk_flatten fun v at_ => bytesOk_verdict (all v at_)))
    · have length := length_flatten_of_const (k := 3) (f := fun v : Nat × Verdict => v.1 :: encodeVerdict v.2) verdicts
        fun v => congrArg (· + 1) (length_encodeVerdict v.2)
      simp only [encodePayload, List.length_append, length, List.length_cons, List.length_nil]
      omega
  | zoneRevoke entries =>
    obtain ⟨one, few, all⟩ := ok
    refine ⟨decodeZoneRevoke_encode one few all, ?_, ?_⟩
    · refine bytesOk_cons (by omega) (bytesOk_flatten fun x at_ => ?_)
      obtain ⟨-, high, tag⟩ := all x at_
      exact bytesOk_cons (by omega) (bytesOk_cons tag (bytesOk_cons (reason_code_lt x.reason) bytesOk_nil))
    · have length := length_flatten_of_const (k := 3) (f := fun e : RevokeEntry => [e.zone, e.tag, e.reason.code]) entries
        fun _ => rfl
      simp only [encodePayload, List.length_append, length, List.length_cons, List.length_nil]
      omega
  | zoneLeave tag zones =>
    obtain ⟨hg, one, few, zones⟩ := ok
    refine ⟨decodeZoneLeave_encode one few zones, ?_, ?_⟩
    · exact bytesOk_cons hg (bytesOk_cons (by omega) (bytesOk_of_zones zones))
    · simp only [encodePayload, List.length_append, List.length_cons, List.length_nil]
      omega
  | jobReport r => exact jobReport_codec ok
  | fault f => exact fault_codec ok
  | status s => exact status_codec ok

/-! ### The check (R187) -/

theorem forced_eq {α : Type} (n : Nat) (f : Nat → α) : forced n f = f n := by cases n <;> rfl

/-- One bit of the check stays within its 16 bits. -/
theorem crcBit_lt {c : Nat} (h : c < 65536) : crcBit 0x8000 0x1021 c < 65536 := by
  unfold crcBit
  split
  · exact Nat.xor_lt_two_pow (n := 16) (Nat.mod_lt _ (by decide)) (by decide)
  · omega

theorem crcEight_lt {c : Nat} (h : c < 65536) : crcEight 0x8000 0x1021 c < 65536 := by
  simp only [crcEight, forced_eq]
  exact crcBit_lt (crcBit_lt (crcBit_lt (crcBit_lt (crcBit_lt (crcBit_lt (crcBit_lt (crcBit_lt h)))))))

theorem crcOver_lt {c : Nat} (h : c < 65536) (l : List Byte) : crcOver 0x8000 0x1021 0x100 c l < 65536 := by
  induction l generalizing c with
  | nil => exact h
  | cons b l ih =>
    rw [crcOver, forced_eq]
    have small : b.toNat * 0x100 < 2 ^ 16 := by
      have := b.isLt
      omega
    exact ih (crcEight_lt (Nat.xor_lt_two_pow (n := 16) h small))

theorem crc16_lt (l : List Byte) : crc16 l < 65536 := crcOver_lt (by decide) l

/-! ### Bytes -/

theorem toNat_toByte {n : Nat} (h : n < 256) : (toByte n).toNat = n := by
  rw [toByte, BitVec.toNat_ofNat]
  exact Nat.mod_eq_of_lt h

/-- Numbers written as bytes are read back. -/
theorem map_toNat_toBytes {l : List Nat} (ok : bytesOk l) : (toBytes l).map BitVec.toNat = l := by
  rw [toBytes, List.map_map]
  exact (List.map_congr_left fun n at_ => toNat_toByte (ok n at_)).trans (List.map_id _)

/-- A number written as two bytes behind others is read back. -/
theorem twoAt_append_two {n : Nat} (l : List Byte) (h : n < 65536) : twoAt (l ++ two n) l.length = n := by
  have high : byteAt (l ++ two n) l.length = n / 256 := by
    simp only [byteAt, two, List.getD_append_right _ _ _ _ le_rfl, Nat.sub_self, List.getD_cons_zero]
    exact toNat_toByte (by omega)
  have low : byteAt (l ++ two n) (l.length + 1) = n % 256 := by
    have second : l.length + 1 - l.length = 1 := by omega
    simp only [byteAt, two, List.getD_append_right _ _ _ _ (Nat.le_add_right _ 1), second, List.getD_cons_succ,
      List.getD_cons_zero, toByte, BitVec.toNat_ofNat]
  rw [twoAt, high, low]
  omega

/-! ### The frame -/

section
variable {f : Frame}

/-- The header of a frame, its bytes as numbers. -/
def header (f : Frame) : List Nat :=
  [f.arbitration, 8 * f.payload.kind + 4 * bit f.alt, f.dest, (encodePayload f.payload).length]

theorem kind_le (p : Payload) : p.kind ≤ 18 := by cases p <;> simp [Payload.kind]

theorem rank_le (c : Cls) : c.rank ≤ 3 := by cases c <;> decide

theorem ofBits_rank (c : Cls) : Cls.ofBits c.rank = c := by cases c <;> rfl

theorem header_ok (ok : f.inRange) : bytesOk (header f) := by
  obtain ⟨-, source, dest, payload⟩ := ok
  obtain ⟨-, -, short⟩ := payload_codec source payload
  have kind := kind_le f.payload
  have one := bit_le_one f.alt
  have rank := rank_le f.cls
  refine bytesOk_cons ?_ (bytesOk_cons (by omega) (bytesOk_cons (by omega) (bytesOk_cons (by omega) bytesOk_nil)))
  unfold Frame.arbitration
  omega

theorem frameBody_eq (f : Frame) : frameBody f = toBytes (header f) ++ toBytes (encodePayload f.payload) :=
  List.map_append

theorem length_frameBody (f : Frame) : (frameBody f).length = 4 + (encodePayload f.payload).length := by
  rw [frameBody_eq, List.length_append, toBytes, toBytes, List.length_map, List.length_map]
  rfl

/-- A byte of the header, as the frame's bytes hold it. -/
theorem byteAt_header (ok : f.inRange) {i n : Nat} (at_ : (header f)[i]? = some n) : byteAt (encodeFrame f) i = n := by
  have small : n < 256 := header_ok ok n (List.mem_of_getElem? at_)
  have here : (encodeFrame f)[i]? = some (toByte n) := by
    have first : (toBytes (header f))[i]? = some (toByte n) := by rw [toBytes, List.getElem?_map, at_]; rfl
    have inside : i < (toBytes (header f)).length := (List.getElem?_eq_some_iff.mp first).1
    rw [encodeFrame, frameBody_eq, List.append_assoc, List.getElem?_append_left inside, first]
  rw [byteAt, List.getD_eq_getElem?_getD, here]
  exact toNat_toByte small

/-- The payload bytes, as the frame's bytes hold them. -/
theorem slice_payload (ok : f.inRange) :
    (slice (encodeFrame f) 4 (encodePayload f.payload).length).map BitVec.toNat = encodePayload f.payload := by
  obtain ⟨-, source, -, payload⟩ := ok
  obtain ⟨-, bytes, -⟩ := payload_codec source payload
  have four : (toBytes (header f)).length = 4 := rfl
  have size : (toBytes (encodePayload f.payload)).length = (encodePayload f.payload).length := List.length_map _
  have held : slice (encodeFrame f) 4 (encodePayload f.payload).length = toBytes (encodePayload f.payload) := by
    rw [slice, encodeFrame, frameBody_eq, List.append_assoc, ← four, List.drop_left, ← size, List.take_left]
  rw [held, map_toNat_toBytes bytes]

/-- The length field is the payload's length. -/
theorem length_field (ok : f.inRange) : byteAt (encodeFrame f) 3 % 64 = (encodePayload f.payload).length := by
  have short : (encodePayload f.payload).length ≤ 60 := by
    obtain ⟨-, source, -, payload⟩ := ok
    exact (payload_codec source payload).2.2
  rw [byteAt_header ok (i := 3) rfl]
  omega

theorem frameGood_encode (ok : f.inRange) : frameGood (encodeFrame f) = true := by
  have body := length_frameBody f
  have whole : (encodeFrame f).length = (frameBody f).length + 2 := List.length_append
  have length : frameLength (encodeFrame f) = (encodeFrame f).length := by
    rw [frameLength, length_field ok, whole, body]
  have front : (encodeFrame f).length - 2 = (frameBody f).length := by omega
  have taken : (encodeFrame f).take (frameBody f).length = frameBody f := List.take_left
  rw [frameGood, length, front, taken]
  refine decide_eq_true ⟨by omega, le_rfl, ?_⟩
  exact twoAt_append_two (frameBody f) (crc16_lt _)

theorem decodeFrame_encode (ok : f.inRange) : decodeFrame (encodeFrame f) = some f := by
  have payload := slice_payload ok
  have length := length_field ok
  have byte0 := byteAt_header ok (i := 0) rfl
  have byte1 := byteAt_header ok (i := 1) rfl
  have byte2 := byteAt_header ok (i := 2) rfl
  have byte3 := byteAt_header ok (i := 3) rfl
  obtain ⟨first, source, dest, range⟩ := ok
  obtain ⟨decodes, -, short⟩ := payload_codec source range
  have kind := kind_le f.payload
  have one := bit_le_one f.alt
  have rank := rank_le f.cls
  have sourceIs : f.arbitration % 64 = f.source := by unfold Frame.arbitration; omega
  have classIs : f.arbitration / 64 = f.cls.rank := by unfold Frame.arbitration; omega
  have kindIs : (8 * f.payload.kind + 4 * bit f.alt) / 8 = f.payload.kind := by omega
  have altIs : (8 * f.payload.kind + 4 * bit f.alt) / 4 % 2 = bit f.alt := by omega
  have wellFormed : ¬ (f.source = 0 ∨ (8 * f.payload.kind + 4 * bit f.alt) % 4 ≠ 0 ∨ 64 ≤ f.dest
      ∨ 61 ≤ (encodePayload f.payload).length) := by omega
  have width : (encodePayload f.payload).length % 64 = (encodePayload f.payload).length := by omega
  simp only [decodeFrame, byte0, byte1, byte2, byte3, width, payload, if_neg wellFormed, sourceIs, classIs, kindIs, altIs,
    decodes, Option.map_some, ofBits_rank, decide_bit]

/-- Settles O52: the check over header and payload, and each field of the header and of each payload. -/
theorem framesDecodeAsBuilt : Obligations.FramesDecodeAsBuilt :=
  fun _ ok => ⟨frameGood_encode ok, decodeFrame_encode ok⟩

end

end Sys2Proof.Proofs.FrameOnTheLine
end


section
/-! The Zone Arbiter at a service reset (R129): every zone record becomes IDLE, and each zone whose AMP-ON goes off starts
the release time of its level entry.  Later proofs use the state of each record, the zones kept, and the levels. -/

namespace Sys2Proof.Proofs.ZonesReset

open Sys2Proof Sys2Proof.Machine Sys2Proof.Proofs.ZoneAsks Sys2Proof.Proofs.ZoneGrants

/-! ### Records made IDLE in turn -/

/-- The records of some zones made IDLE, one after another. -/
def idled (e : Env) (l : List ZoneRec) (w : Works) : Works := l.foldl (fun w z => w.setZone e z.toIdle) w

theorem resetZones_eq (e : Env) (w : Works) : w.resetZones e = idled e w.zones.recs w := rfl

theorem idled_cons (e : Env) (z : ZoneRec) (l : List ZoneRec) (w : Works) :
    idled e (z :: l) w = idled e l (w.setZone e z.toIdle) := rfl

/-- Making records IDLE changes the zone records and the level entries alone. -/
theorem idled_eq (e : Env) (l : List ZoneRec) (w : Works) :
    ∃ recs levels, idled e l w = { w with zones := { w.zones with recs := recs }, levels := levels } := by
  induction l generalizing w with
  | nil => exact ⟨_, _, rfl⟩
  | cons z rest ih =>
    obtain ⟨recs, levels, settled⟩ := ih (w.setZone e z.toIdle)
    obtain ⟨ls, written⟩ := setZone_eq e z.toIdle w
    exact ⟨recs, levels, by rw [idled_cons, settled, written]⟩

/-- A record stands afterwards because it was made IDLE, or as it was because its zone was passed over. -/
theorem mem_idled {e : Env} {l : List ZoneRec} {w : Works} {r : ZoneRec} (mem : r ∈ (idled e l w).zones.recs) :
    (∃ z ∈ l, r = z.toIdle) ∨ (r ∈ w.zones.recs ∧ r.zone ∉ l.map (·.zone)) := by
  induction l generalizing w with
  | nil => exact Or.inr ⟨mem, List.not_mem_nil⟩
  | cons z rest ih =>
    rcases ih mem with ⟨x, mx, rfl⟩ | ⟨old, passed⟩
    · exact Or.inl ⟨x, List.mem_cons_of_mem _ mx, rfl⟩
    · rw [setZone_recs, List.mem_map] at old
      obtain ⟨o, mo, rfl⟩ := old
      by_cases same : o.zone = z.zone
      · exact Or.inl ⟨z, List.mem_cons_self, by simp [ZoneRec.toIdle, same]⟩
      · refine Or.inr ?_
        have kept : (if o.zone = z.toIdle.zone then z.toIdle else o) = o := if_neg same
        rw [kept] at passed ⊢
        exact ⟨mo, by simpa [same] using passed⟩

/-- After a service reset every record is one of the old ones in IDLE. -/
theorem mem_resetZones {e : Env} {w : Works} {r : ZoneRec} (mem : r ∈ (w.resetZones e).zones.recs) :
    ∃ z ∈ w.zones.recs, r = z.toIdle := by
  rcases mem_idled mem with idle | ⟨old, passed⟩
  · exact idle
  · exact absurd (List.mem_map_of_mem old) passed

theorem zones_resetZones (e : Env) (w : Works) :
    (w.resetZones e).zones.recs.map (·.zone) = w.zones.recs.map (·.zone) := by
  have keep (l : List ZoneRec) (w : Works) : (idled e l w).zones.recs.map (·.zone) = w.zones.recs.map (·.zone) := by
    induction l generalizing w with
    | nil => rfl
    | cons z rest ih =>
      rw [idled_cons, ih, setZone_recs, List.map_map]
      refine List.map_congr_left fun o _ => ?_
      simp only [Function.comp]
      split
      · next same => exact same.symm
      · rfl
  exact keep _ w

/-- With one record for each zone, every record becomes its own IDLE. -/
theorem recs_resetZones {w : Works} (e : Env) (nodup : (w.zones.recs.map (·.zone)).Nodup) :
    (w.resetZones e).zones.recs = w.zones.recs.map ZoneRec.toIdle := by
  have zones := zones_resetZones e w
  have lengths : (w.resetZones e).zones.recs.length = w.zones.recs.length := by simpa using congrArg List.length zones
  refine List.ext_getElem (by simpa using lengths) fun i now was => ?_
  rw [List.length_map] at was
  obtain ⟨z, mem, idle⟩ := mem_resetZones (List.getElem_mem now)
  obtain ⟨j, hj, rfl⟩ := List.getElem_of_mem mem
  have zone : ((w.resetZones e).zones.recs[i]).zone = (w.zones.recs[i]).zone := by
    simpa [now, was] using congrArg (·[i]?) zones
  have same : j = i := by
    refine (List.nodup_iff_injective_getElem.mp nodup |>.eq_iff (a := ⟨j, by simpa using hj⟩) (b := ⟨i, by simpa using was⟩)
      |>.mp ?_ |> Fin.mk.inj)
    simpa [idle, ZoneRec.toIdle] using zone
  subst same
  simpa using idle

/-! ### The level entries -/

/-- AMP-ON of a zone, off where this node has no such zone. -/
def ampOnZone (w : Works) (zone : Nat) : Bool := (w.zone zone).any (·.state.ampOn)

/-- AMP-ON of a level entry's zone taken off, where it was on. -/
def released (e : Env) (on : Prop) [Decidable on] (l : LevelEntry) : LevelEntry :=
  if on then l.ampTakenOff e.now e.part.cfg.settings.release else l

theorem released_zone (e : Env) (on : Prop) [Decidable on] (l : LevelEntry) : (released e on l).zone = l.zone := by
  unfold released
  split
  · exact (LevelEntry.ampTakenOff_wf _ _ l).2
  · rfl

theorem ampOn_toIdle (z : ZoneRec) : z.toIdle.state.ampOn = false := rfl

theorem levels_setZone_toIdle (e : Env) (z : ZoneRec) (w : Works) :
    (w.setZone e z.toIdle).levels = w.levels.map (fun l => released e (l.zone = z.zone ∧ ampOnZone w z.zone) l) := by
  have number : z.toIdle.zone = z.zone := rfl
  cases found : w.zone z.zone with
  | none => simp [Works.setZone, Works.reportAmp, ampOn_toIdle, number, found, released, ampOnZone]
  | some o =>
    cases on : o.state.ampOn
    · rw [setZone_levels_of_same (z := z.toIdle) e found (on.trans (ampOn_toIdle z).symm)]
      simp [released, ampOnZone, found, on]
    · simp [Works.setZone, Works.reportAmp, Works.modLevel, ampOn_toIdle, number, found, released, ampOnZone, on]

theorem ampOnZone_setZone_toIdle (e : Env) (z : ZoneRec) (w : Works) (zone : Nat) :
    ampOnZone (w.setZone e z.toIdle) zone = (ampOnZone w zone && decide (zone ≠ z.zone)) := by
  unfold ampOnZone
  rw [zone_setZone]
  cases found : w.zone zone with
  | none => rfl
  | some o =>
    have number := (w.zone_mem zone o found).2
    by_cases same : zone = z.zone <;> simp [number, same, ZoneRec.toIdle, ZoneState.ampOn]

theorem levels_idled (e : Env) (l : List ZoneRec) (w : Works) :
    (idled e l w).levels = w.levels.map (fun x => released e (x.zone ∈ l.map (·.zone) ∧ ampOnZone w x.zone) x) := by
  induction l generalizing w with
  | nil => simp [idled, released]
  | cons z rest ih =>
    rw [idled_cons, ih, levels_setZone_toIdle, List.map_map]
    refine List.map_congr_left fun x _ => ?_
    simp only [Function.comp, released_zone, ampOnZone_setZone_toIdle]
    by_cases here : x.zone = z.zone
    · simp [released, here]
    · simp [released, here]

/-- A service reset takes AMP-ON off every zone that has it (R129, R156). -/
theorem levels_resetZones (e : Env) (w : Works) :
    (w.resetZones e).levels = w.levels.map (fun x => released e (ampOnZone w x.zone) x) := by
  rw [resetZones_eq, levels_idled]
  refine List.map_congr_left fun x _ => ?_
  have listed : ampOnZone w x.zone = true → x.zone ∈ w.zones.recs.map (·.zone) := by
    intro on
    cases found : w.zone x.zone with
    | none => simp [ampOnZone, found] at on
    | some o =>
      obtain ⟨mem, number⟩ := w.zone_mem x.zone o found
      exact number ▸ List.mem_map_of_mem mem
  by_cases on : ampOnZone w x.zone = true
  · simp [released, on, listed on]
  · simp [released, on]

end Sys2Proof.Proofs.ZonesReset
end


section
/-! The release frames of a service reset (R178): handed over in turn they reach the transmit queue and the counters alone,
and with room for all of them each stands in the queue.  The ZONE-REVOKE frames carry every revocation of another node. -/

namespace Sys2Proof.Proofs.ReleaseFrames

open Sys2Proof Sys2Proof.Machine Sys2Proof.Proofs.Commands Sys2Proof.Proofs.Reports Sys2Proof.Proofs.FaultSetFollows

/-! ### Frames handed over in turn (R167) -/

/-- No block would hear of a frame of this queue being removed: it is in transmission, or no block waits for it. -/
def silent (tx : List TxFrame) : Prop := ∀ x ∈ tx, x.sending = true ∨ Frame.untold x.frame

/-- The works with another transmit queue and other counters. -/
def withQueue (tx : List TxFrame) (counters : List Nat) (w : Works) : Works :=
  { w with line := { w.line with tx := tx }, report := { w.report with counters := counters } }

theorem unsent_of_untold {f : Frame} (p : TxPurpose) (w : Works) (untold : Frame.untold f) :
    w.unsent f p = w.bump .framesDropped := by
  unfold Works.unsent
  unfold Frame.untold at untold
  split at untold <;> simp_all

theorem silent_enqueue {tx : List TxFrame} {x : TxFrame} (quiet : silent tx) (untold : Frame.untold x.frame) :
    silent (enqueueFrame x tx) := by
  intro y mem
  rcases (mem_enqueueFrame x y tx).mp mem with rfl | old
  · exact Or.inr untold
  · exact quiet y old

/-- A frame no block waits for, handed over at a silent queue: the queue stays silent, and nothing else changes but the
counters. -/
theorem hand_of_silent {w : Works} {f : Frame} (e : Env) (p : TxPurpose) (untold : Frame.untold f)
    (quiet : silent w.line.tx) : ∃ tx counters, silent tx ∧ w.hand e f p = withQueue tx counters w := by
  unfold Works.hand
  split
  · exact ⟨w.line.tx, w.report.counters, quiet, rfl⟩
  · split
    · exact ⟨w.line.tx, _, quiet, unsent_of_untold p w untold⟩
    · split
      · exact ⟨_, w.report.counters, silent_enqueue quiet untold, rfl⟩
      · split
        · exact ⟨w.line.tx, _, quiet, unsent_of_untold p w untold⟩
        · split
          · next x rest dropped =>
            obtain ⟨part, -, mem, -, waiting⟩ := dropYoungest_spec _ _ _ dropped
            have heard : Frame.untold x.frame := (quiet x mem).resolve_left (by simp [waiting])
            exact ⟨_, _, silent_enqueue (fun y my => quiet y (part.subset my)) untold, unsent_of_untold _ _ heard⟩
          · exact ⟨w.line.tx, _, quiet, unsent_of_untold p w untold⟩

theorem handAll_of_silent {w : Works} {fs : List Frame} (e : Env) (untold : ∀ f ∈ fs, Frame.untold f)
    (quiet : silent w.line.tx) : ∃ tx counters, w.handAll e fs = withQueue tx counters w := by
  induction fs generalizing w with
  | nil => exact ⟨w.line.tx, w.report.counters, rfl⟩
  | cons f rest ih =>
    obtain ⟨tx, counters, still, handed⟩ := hand_of_silent e .plain (untold f List.mem_cons_self) quiet
    obtain ⟨tx', counters', done⟩ := ih (w := withQueue tx counters w) (fun g mem => untold g (List.mem_cons_of_mem _ mem)) still
    refine ⟨tx', counters', ?_⟩
    have step : w.handAll e (f :: rest) = (w.hand e f .plain).handAll e rest := rfl
    rw [step, handed, done]
    rfl

/-- Frames queued behind one another. -/
def queuedAll (fs : List Frame) (tx : List TxFrame) : List TxFrame := fs.foldl (fun l f => queuedAmong f l) tx

theorem length_queuedAmong (f : Frame) (tx : List TxFrame) : (queuedAmong f tx).length = tx.length + 1 :=
  enqueueFrame_length _ _

/-- With room for every frame each is queued. -/
theorem handAll_of_room {w : Works} {fs : List Frame} {e : Env} (line : e.onLine)
    (room : w.line.tx.length + fs.length ≤ txCapacity) : (w.handAll e fs).line.tx = queuedAll fs w.line.tx := by
  induction fs generalizing w with
  | nil => rfl
  | cons f rest ih =>
    rw [List.length_cons] at room
    have here : w.room := by
      unfold Works.room
      omega
    have step : w.handAll e (f :: rest) = (w.queueFrame f .plain).handAll e rest :=
      congrArg (fun v => Works.handAll e rest v) (hand_of_room f .plain line here)
    rw [step, ih]
    · rfl
    · have longer := length_queuedAmong f w.line.tx
      have queued : (w.queueFrame f .plain).line.tx = queuedAmong f w.line.tx := rfl
      rw [queued]
      omega

theorem mem_queuedAll_of_mem {tx : List TxFrame} {x : TxFrame} (fs : List Frame) (mem : x ∈ tx) : x ∈ queuedAll fs tx := by
  induction fs generalizing tx with
  | nil => exact mem
  | cons f rest ih => exact ih ((mem_enqueueFrame _ x tx).mpr (Or.inr mem))

theorem queued_of_mem {fs : List Frame} {f : Frame} (tx : List TxFrame) (mem : f ∈ fs) :
    ∃ x ∈ queuedAll fs tx, x.frame = f := by
  induction fs generalizing tx with
  | nil => exact absurd mem List.not_mem_nil
  | cons g rest ih =>
    rcases List.mem_cons.mp mem with rfl | later
    · exact ⟨_, mem_queuedAll_of_mem rest ((mem_enqueueFrame _ _ tx).mpr (Or.inl rfl)), rfl⟩
    · exact ih _ later

/-! ### ZONE-REVOKE frames (R124, R189) -/

theorem mem_insertFront {α : Type} (le : α → α → Bool) (a x : α) (l : List α) :
    x ∈ sortBy.insertFront le a l ↔ x = a ∨ x ∈ l := by
  induction l with
  | nil => simp [sortBy.insertFront]
  | cons b rest ih =>
    unfold sortBy.insertFront
    split
    · simp
    · simp only [List.mem_cons, ih]
      tauto

theorem mem_sortBy {α : Type} (le : α → α → Bool) (x : α) (l : List α) : x ∈ sortBy le l ↔ x ∈ l := by
  induction l with
  | nil => simp [sortBy]
  | cons a rest ih => simp [sortBy, mem_insertFront, ih]

/-- Pieces of 16 leave no element out. -/
theorem exists_chunk_of_mem {α : Type} {l : List α} {x : α} {n : Nat} (fuel : l.length ≤ n) (mem : x ∈ l) :
    ∃ c ∈ chunks16 n l, x ∈ c := by
  induction n generalizing l with
  | zero => exact absurd mem (List.length_eq_zero_iff.mp (Nat.le_zero.mp fuel) ▸ List.not_mem_nil)
  | succ n ih =>
    cases l with
    | nil => exact absurd mem List.not_mem_nil
    | cons a rest =>
      have parts : x ∈ (a :: rest).take 16 ∨ x ∈ (a :: rest).drop 16 := by
        rwa [← List.mem_append, List.take_append_drop]
      rcases parts with early | late
      · exact ⟨_, List.mem_cons_self, early⟩
      · have shorter : ((a :: rest).drop 16).length ≤ n := by
          simp only [List.length_drop, List.length_cons] at *
          omega
        obtain ⟨c, mc, mx⟩ := ih shorter late
        exact ⟨c, List.mem_cons_of_mem _ mc, mx⟩

theorem mem_insertedAll (n : Nat) (l start : List Nat) :
    n ∈ l.foldl (fun l n => insertAsc n l) start ↔ n ∈ l ∨ n ∈ start := by
  induction l generalizing start with
  | nil => simp
  | cons a rest ih =>
    rw [List.foldl_cons, ih, mem_insertAsc, List.mem_cons]
    tauto

/-- A revocation of another node stands in a ZONE-REVOKE frame to it. -/
theorem exists_revokeFrame {e : Env} {rs : List Revocation} {r : Revocation} (mem : r ∈ rs) (other : r.node ≠ e.part.node) :
    ∃ f ∈ revokeFrames e rs, f.dest = r.node ∧ ∃ entries, f.payload = .zoneRevoke entries ∧ r.entry ∈ entries := by
  have node : r.node ∈ (((rs.map (·.node)).filter (· ≠ e.part.node)).foldl (fun l n => insertAsc n l) []) := by
    simpa [mem_insertedAll, other] using ⟨r, mem, rfl⟩
  have mine : r ∈ sortBy (fun a b => decide (a.entry.zone ≤ b.entry.zone)) (rs.filter (fun x => x.node = r.node)) := by
    simp [mem_sortBy, mem]
  obtain ⟨c, mc, mr⟩ := exists_chunk_of_mem (Nat.le_refl _) mine
  have listed : mkFrame e (bestClass c) r.node (.zoneRevoke (c.map (·.entry))) ∈ revokeFramesTo e rs r.node :=
    List.mem_map_of_mem (f := fun c => mkFrame e (bestClass c) r.node (.zoneRevoke (c.map (·.entry)))) mc
  exact ⟨_, List.mem_flatten.mpr ⟨_, List.mem_map_of_mem node, listed⟩, rfl, _, rfl, List.mem_map_of_mem mr⟩

/-- Every revocation frame is a ZONE-REVOKE. -/
theorem payload_of_revokeFrame {e : Env} {rs : List Revocation} {f : Frame} (mem : f ∈ revokeFrames e rs) :
    ∃ entries, f.payload = .zoneRevoke entries := by
  obtain ⟨fs, listed, mem⟩ := List.mem_flatten.mp mem
  obtain ⟨node, -, rfl⟩ := List.mem_map.mp listed
  obtain ⟨c, -, rfl⟩ := List.mem_map.mp mem
  exact ⟨_, rfl⟩

/-- The revocation of a holder of another node. -/
theorem mem_resetRevocations_of_holder {e : Env} {recs : List ZoneRec} {z : ZoneRec} {h : Holder} (mem : z ∈ recs)
    (held : z.holder = some h) (other : h.node ≠ e.part.node) : h.revoke z.zone .reset ∈ resetRevocations e recs := by
  refine List.mem_filter.mpr ⟨List.mem_flatten.mpr ⟨_, List.mem_map_of_mem mem, ?_⟩, decide_eq_true other⟩
  simp [held]

/-- The revocation of a waiting entry of another node. -/
theorem mem_resetRevocations_of_waiter {e : Env} {recs : List ZoneRec} {z : ZoneRec} {x : Waiter} (mem : z ∈ recs)
    (waits : x ∈ z.waiting) (other : x.node ≠ e.part.node) : x.revoke z.zone .reset ∈ resetRevocations e recs := by
  refine List.mem_filter.mpr ⟨List.mem_flatten.mpr ⟨_, List.mem_map_of_mem mem, ?_⟩, decide_eq_true other⟩
  exact List.mem_append_right _ (List.mem_map_of_mem waits)

/-! ### Leaves and FREE frames (R152) -/

/-- The remote zones a job wants. -/
def wantedRemote (r : JobRec) : List Nat := (r.gathering.grants.filter (fun g => g.home.isRemote && g.wanted)).map (·.zone)

theorem leave_mem_resetLeaves {e : Env} {w : Works} {r : JobRec} (mem : r ∈ w.jobs.recs) (running : r.state.inProgress = true)
    (wants : wantedRemote r ≠ []) : mkFrame e r.cls 0 (.zoneLeave r.tag (wantedRemote r)) ∈ resetLeaves e w := by
  refine List.mem_filterMap.mpr ⟨r, mem, ?_⟩
  exact if_neg (fun none => none.elim (by simp [running]) wants)

theorem free_mem_resetFrees {e : Env} {w : Works} {r : JobRec} {t : Nat} (mem : r ∈ w.jobs.recs)
    (running : r.state.inProgress = true) (held : r.trunk = some t) :
    mkFrame e r.cls 0 (.free t r.tag) ∈ resetFrees e w := by
  refine List.mem_filterMap.mpr ⟨r, mem, ?_⟩
  simp [held, running]

theorem payload_of_resetLeave {e : Env} {w : Works} {f : Frame} (mem : f ∈ resetLeaves e w) :
    ∃ tag zones, f.payload = .zoneLeave tag zones := by
  obtain ⟨r, -, made⟩ := List.mem_filterMap.mp mem
  dsimp only at made
  split at made
  · exact absurd made (by simp)
  · exact ⟨_, _, (congrArg Frame.payload (Option.some.inj made)).symm⟩

theorem payload_of_resetFree {e : Env} {w : Works} {f : Frame} (mem : f ∈ resetFrees e w) :
    ∃ trunk tag, f.payload = .free trunk tag := by
  obtain ⟨r, -, made⟩ := List.mem_filterMap.mp mem
  split at made
  · split at made
    · exact ⟨_, _, (congrArg Frame.payload (Option.some.inj made)).symm⟩
    · exact absurd made (by simp)
  · exact absurd made (by simp)

/-- No block waits for a release frame. -/
theorem untold_of_release {n : Node} {f : Frame} (mem : f ∈ n.releases) : Frame.untold f := by
  unfold Node.releases at mem
  unfold Frame.untold
  rcases List.mem_append.mp mem with mem | mem
  · rcases List.mem_append.mp mem with mem | mem
    · obtain ⟨entries, payload⟩ := payload_of_revokeFrame mem
      simp [payload]
    · obtain ⟨tag, zones, payload⟩ := payload_of_resetLeave mem
      simp [payload]
  · obtain ⟨trunk, tag, payload⟩ := payload_of_resetFree mem
    simp [payload]

end Sys2Proof.Proofs.ReleaseFrames
end


section
/-! The service reset (R178): what each block is left with, and the release frames queued.  Settles O7. -/

namespace Sys2Proof.Proofs.ServiceResets

open Sys2Proof Sys2Proof.Machine Sys2Proof.Proofs.Effects Sys2Proof.Proofs.Commands Sys2Proof.Proofs.Reports
open Sys2Proof.Proofs.ZoneAsks Sys2Proof.Proofs.ZonesReset Sys2Proof.Proofs.ReleaseFrames

/-! ### What the reset leaves, as one record -/

/-- The transmit queue with nothing but a frame in transmission (R178, step 1). -/
def keptQueue (l : Line) : List TxFrame := (l.tx.filter (·.sending)).map (fun x => { x with doomed := true })

/-- The works as step 1 of R178 leaves them. -/
def emptied (w : Works) : Works := { w with line := w.line.emptyQueue.emptyFifo }

/-- The works a service reset leaves, given the transmit queue, the zone records and the levels. -/
def resetWorks (e : Env) (tx : List TxFrame) (recs : List ZoneRec) (levels : List LevelEntry) (w : Works) : Works :=
  { jobs := { w.jobs with recs := [], triggerJobs := [none, none], lastAired := List.replicate 5 none },
    flash := w.flash.serviceReset, channels := List.zipWith Channel.serviceReset w.flash.serviceReset.streams w.channels,
    zones := { w.zones with recs := recs }, trunks := w.trunks.map (fun h => h.filter (fun x => x.node ≠ e.part.node)),
    levels := levels,
    line := { w.line with tx := tx, rx := [], echo := w.line.echo.map (fun x => { x with ahead := 0 }) },
    report := { w.report with counters := List.replicate 16 0 }, agenda := w.agenda }

theorem silent_keptQueue (l : Line) : silent (keptQueue l) := by
  intro x mem
  obtain ⟨y, my, rfl⟩ := List.mem_map.mp mem
  exact Or.inl (List.mem_filter.mp my).2

/-- The release frames change the queue and the counters alone. -/
theorem handReleases_eq (n : Node) :
    ∃ counters, (emptied n.ws).handReleases n.env
      = withQueue ((emptied n.ws).handReleases n.env).line.tx counters (emptied n.ws) := by
  unfold Works.handReleases
  split
  · exact ⟨_, rfl⟩
  · obtain ⟨tx, counters, handed⟩ := handAll_of_silent (w := emptied n.ws) n.env
      (fun f (mem : f ∈ n.releases) => untold_of_release mem) (silent_keptQueue n.ws.line)
    refine ⟨counters, ?_⟩
    have same : tx = ((emptied n.ws).handAll n.env n.releases).line.tx := congrArg (·.line.tx) handed.symm
    exact handed.trans (by rw [same]; rfl)

/-- A service reset as one record; `c` stands for the works the arbiter's reset starts from. -/
theorem serviceReset_eq {n : Node} (started : n.env.part.state ≠ .start) :
    ∃ c : Works, c.zones = n.ws.zones ∧ c.levels = n.ws.levels ∧ serviceReset n =
        { env := n.env.serviceReset,
          ws := resetWorks n.env ((emptied n.ws).handReleases n.env).line.tx (c.resetZones n.env).zones.recs
                  (c.resetZones n.env).levels n.ws } := by
  obtain ⟨counters, handed⟩ := handReleases_eq n
  let c := (((emptied n.ws).handReleases n.env).resetJobs).resetAudio
  have shape : c = ((withQueue ((emptied n.ws).handReleases n.env).line.tx counters (emptied n.ws)).resetJobs).resetAudio :=
    congrArg (fun v : Works => v.resetJobs.resetAudio) handed
  obtain ⟨recs, levels, zoned⟩ := idled_eq n.env c.zones.recs c
  refine ⟨c, by rw [shape]; rfl, by rw [shape]; rfl, ?_⟩
  have reset : serviceReset n
      = { env := n.env.serviceReset, ws := ((c.resetZones n.env).freeOwnTrunks n.env).clearCounters } := if_neg started
  rw [reset, resetZones_eq, zoned, shape]
  rfl

/-! ### The audio side (R89, R103) -/

theorem stream_serviceReset (s : Stream) :
    (s.serviceReset.state, s.serviceReset.inFlight, s.serviceReset.budget)
      = (if s.inFlight.isSome then .ending else .idle, s.inFlight, s.budget) := by
  unfold Stream.serviceReset Stream.quit
  split <;> simp_all [Stream.toIdle]

/-- Each channel beside its stream takes the state the stream is left in. -/
theorem state_of_zip {streams : List Stream} {channels : List Channel} {x : Channel × Stream}
    (mem : x ∈ (List.zipWith Channel.serviceReset streams channels).zip streams) :
    x.1.state = if x.2.state = .ending then .flushing else .free := by
  induction streams generalizing channels with
  | nil => simp at mem
  | cons s rest ih =>
    cases channels with
    | nil => simp at mem
    | cons c others =>
      rcases List.mem_cons.mp mem with rfl | later
      · rfl
      · exact ih later

theorem exists_serviceReset_of_mem {streams : List Stream} {channels : List Channel} {c : Channel}
    (mem : c ∈ List.zipWith Channel.serviceReset streams channels) : ∃ s d, c = Channel.serviceReset s d := by
  obtain ⟨i, hi, rfl⟩ := List.getElem_of_mem mem
  exact ⟨_, _, List.getElem_zipWith⟩

/-! ### The queue (R178, step 2) -/

theorem releasesQueued_of_reset {n m : Node} (started : n.env.part.state ≠ .start)
    (queue : m.ws.line.tx = ((emptied n.ws).handReleases n.env).line.tx) : n.releasesQueued m := by
  unfold Node.releasesQueued
  refine ⟨fun isolated => ?_, fun joined room => ?_⟩
  · rw [queue, Works.handReleases, if_pos isolated]
    rfl
  · have line : n.env.onLine := by
      unfold Env.onLine
      cases state : n.env.part.state <;> simp_all
    have all : m.ws.line.tx = queuedAll n.releases (keptQueue n.ws.line) := by
      rw [queue, Works.handReleases, if_neg joined]
      exact handAll_of_room (w := emptied n.ws) line room
    have queues {f : Frame} (mem : f ∈ n.releases) : ∃ x ∈ m.ws.line.tx, x.frame = f := all ▸ queued_of_mem _ mem
    have revokes {r : Revocation} (mem : r ∈ resetRevocations n.env n.ws.zones.recs) (other : r.node ≠ n.env.part.node) :
        ∃ x ∈ m.ws.line.tx, x.frame.dest = r.node
          ∧ ∃ entries, x.frame.payload = .zoneRevoke entries ∧ r.entry ∈ entries := by
      obtain ⟨f, made, dest, entries, payload, mine⟩ := exists_revokeFrame mem other
      obtain ⟨x, mx, rfl⟩ := queues (List.mem_append_left _ (List.mem_append_left _ made))
      exact ⟨x, mx, dest, entries, payload, mine⟩
    refine ⟨all, fun z mem h held other => revokes (mem_resetRevocations_of_holder mem held other) other,
      fun z mem x waits other => revokes (mem_resetRevocations_of_waiter mem waits other) other,
      fun r mem running => ⟨fun t held => ?_, fun wants => ?_⟩⟩
    · exact queues (List.mem_append_right _ (free_mem_resetFrees mem running held))
    · exact queues (List.mem_append_left _ (List.mem_append_right _ (leave_mem_resetLeaves mem running wants)))

/-! ### The levels (R156) -/

theorem released_of_no_zone {e : Env} {w : Works} {l : LevelEntry} (none : w.zone l.zone = none) :
    released e (ampOnZone w l.zone) l = l := by
  simp [released, ampOnZone, none]

theorem released_of_zone {e : Env} {w : Works} {l : LevelEntry} {z : ZoneRec} (found : w.zone l.zone = some z) :
    released e (ampOnZone w l.zone) l =
      if z.state = .idle then l
      else if e.part.cfg.settings.release = 0 then l.openHold
      else { l with hold := .releasing, release := some (e.now + sec e.part.cfg.settings.release) } := by
  unfold released ampOnZone
  rw [found]
  cases state : z.state <;> simp [state, ZoneState.ampOn, LevelEntry.ampTakenOff]

/-! ### O7 -/

theorem serviceResetFrom_serviceReset {n : Node} (started : n.env.part.state ≠ .start) :
    n.serviceResetFrom (serviceReset n) := by
  obtain ⟨c, zones, levels, reset⟩ := serviceReset_eq started
  rw [reset]
  refine ⟨rfl, rfl, rfl, rfl, rfl, ?_, fun x mem => ?_, fun x mem => state_of_zip mem, fun z mem => ?_, fun nodup => ?_, rfl,
    ?_, rfl, rfl, releasesQueued_of_reset started rfl, rfl, rfl, rfl⟩
  · exact (List.map_map ..).trans (List.map_congr_left fun s _ => stream_serviceReset s)
  · obtain ⟨s, d, rfl⟩ := exists_serviceReset_of_mem mem
    exact ⟨rfl, rfl, rfl, rfl, rfl, rfl, rfl⟩
  · obtain ⟨o, -, rfl⟩ := mem_resetZones mem
    exact ⟨rfl, rfl, rfl⟩
  · have recs := recs_resetZones n.env (w := c) (by rwa [zones])
    rw [zones] at recs
    simp only [resetWorks, recs, List.map_map]
    rfl
  · have same (zone : Nat) : c.zone zone = n.ws.zone zone := zone_congr (congrArg ZoneTable.recs zones) zone
    refine (levels_resetZones n.env c).trans ?_
    rw [levels]
    refine List.map_congr_left fun l _ => ?_
    cases found : n.ws.zone l.zone with
    | none => exact released_of_no_zone ((same _).trans found)
    | some z => exact released_of_zone ((same _).trans found)

/-- The reset hands no work to another block. -/
theorem agenda_serviceReset {n : Node} (rested : n.ws.agenda = []) : (serviceReset n).ws.agenda = [] := by
  by_cases start : n.env.part.state = .start
  · rw [serviceReset, if_pos start]
    exact rested
  · obtain ⟨c, -, -, reset⟩ := serviceReset_eq start
    rw [reset]
    exact rested

/-- What the reset leaves does not depend on the frame that asked for it, which has left the FIFO. -/
theorem serviceResetFrom_of_taken {s : State} {rest : List Frame} {m : Node}
    (reset : Node.serviceResetFrom { s.node with ws := s.taken rest } m) : s.node.serviceResetFrom m := by
  obtain ⟨env, jobs, cache, waiting, served, streams, cleared, states, idle, zones, arrivals, levels, trunks, line, after⟩ :=
    reset
  refine ⟨env, jobs, cache, waiting, served, streams, cleared, states, idle, zones, arrivals, levels, trunks, ?_, after⟩
  have ahead : ((s.node.ws.line.takeFrame rest).echo.map (fun x => { x with ahead := 0 }))
      = s.node.ws.line.echo.map (fun x => { x with ahead := 0 }) := Option.map_map ..
  exact line.trans (congrArg (fun echo => { s.node.ws.line with tx := m.ws.line.tx, rx := [], echo := echo }) ahead)

/-- Settles O7: the reset as one record, whose zones and queue the lemmas on the arbiter's reset and on the release frames
give. -/
theorem serviceResetEmptiesTheTables : Obligations.ServiceResetEmptiesTheTables := by
  unfold Obligations.ServiceResetEmptiesTheTables
  refine ⟨fun s rested started => ?_, fun s rested start => ?_, fun s f rest rested head payload => ?_⟩
  · exact ⟨_, exec_of_effect_rested (c := .srvPulse) rfl (agenda_serviceReset rested),
      serviceResetFrom_serviceReset started⟩
  · exact exec_of_effect_rested (c := .srvPulse) (if_pos start) rested
  · have taken : effect .serviceReset s.node
        = if f.dest = s.env.part.node then serviceReset { s.node with ws := s.taken rest }
          else { s.node with ws := s.taken rest } :=
      effect_of_passes (c := .serviceReset) rfl head (g := fun n => if f.dest = n.env.part.node then serviceReset n else n)
        (by simp [actServiceReset, payload])
    refine ⟨fun mine started => ?_, fun other => ?_⟩
    · rw [if_pos mine] at taken
      exact ⟨_, exec_of_effect_rested taken (agenda_serviceReset rested),
        serviceResetFrom_of_taken (serviceResetFrom_serviceReset started)⟩
    · rw [if_neg other] at taken
      exact exec_of_effect_rested taken rested

end Sys2Proof.Proofs.ServiceResets
end


section
/-! Leaving START (R172 to R175): the works the blocks build from the configuration, and the two frames the node sends
first.  These serve O4. -/

namespace Sys2Proof.Proofs.LeavingStart

open Sys2Proof Sys2Proof.Machine Sys2Proof.Proofs.Effects Sys2Proof.Proofs.Commands Sys2Proof.Proofs.Reports
open Sys2Proof.Proofs.JobEnds

/-! ### What the node builds -/

/-- What the blocks read once the image has been taken. -/
def imageEnv (cfg : Loaded) (safe : Bool) (e : Env) : Env :=
  { e with part := { e.part with state := .listen, safe := safe, cfg := cfg }, faces := buildFaces cfg e.pins.pres }

/-- What the blocks read as the node enters LISTEN. -/
def listening (e : Env) : Env :=
  { e with part := { e.part with state := .listen, listenTimer := some (e.now + sec 2), isolationTimer := none } }

/-- The records the node builds from its configuration. -/
def imageWorks (cfg : Loaded) (safe : Bool) (e : Env) (w : Works) : Works :=
  { w with
    zones := { w.zones with recs := buildZones cfg safe e.part.node e.pins.zflt },
    levels := buildLevels cfg safe e.part.node e.now,
    flash := { w.flash with streams := w.flash.streams.map (fun s => { s with budget := cfg.settings.budget }) } }

/-- The event that sets the first conditions (R180). -/
def firstFaults (safe : Bool) (recs : List ZoneRec) (f : FaultSet) : FaultSet :=
  recs.foldl FaultSet.followLine { f with clockUnknown := true, safeConfig := safe }

theorem imageTaken_eq {n : Node} {image : Option (List Byte)} {cfg : Loaded} {count : Nat} {safe : Bool}
    (start : n.env.part.state = .start) (reading : n.env.part.phase = .readingImage)
    (loaded : loadConfiguration image n.env.part.setB = (cfg, count, safe)) :
    imageTaken image n = enterListen
      { env := imageEnv cfg safe n.env,
        ws := (Works.bumpBy .correctedFields count (imageWorks cfg safe n.env n.ws)).faultEvent (imageEnv cfg safe n.env)
          (firstFaults safe (buildZones cfg safe n.env.part.node n.env.pins.zflt)) } := by
  rw [imageTaken, if_pos ⟨start, reading⟩]
  dsimp only
  rw [loaded]
  rfl

/-! ### Counting the corrections (R186) -/

theorem bumpBy_eq (c : Counter) (n : Nat) (w : Works) :
    ∃ counters, w.bumpBy c n = { w with report := { w.report with counters := counters } } := by
  induction n generalizing w with
  | zero => exact ⟨_, rfl⟩
  | succ n ih =>
    obtain ⟨counters, counted⟩ := ih (w.bump c)
    exact ⟨counters, counted⟩

/-- Several increments of a counter stop at its top. -/
theorem counter_bumpBy {w : Works} (wf : w.report.wf) (c : Counter) (n : Nat) :
    (w.bumpBy c n).counter c = min 65535 (w.counter c + n) := by
  induction n generalizing w with
  | zero =>
    have top := counter_le wf c
    show w.counter c = min 65535 (w.counter c + 0)
    omega
  | succ n ih =>
    have one : (w.bumpBy c (n + 1)).counter c = min 65535 ((w.bump c).counter c + n) :=
      ih ((Moves.refl.bump c).reportWf wf)
    rw [one, counter_bump_same c wf.1]
    unfold saturate
    split <;> omega

/-! ### The first event (R180, R182) -/

theorem followLine_flags (f : FaultSet) (z : ZoneRec) :
    (f.followLine z).clockUnknown = f.clockUnknown ∧ (f.followLine z).safeConfig = f.safeConfig := by
  unfold FaultSet.followLine
  split <;> exact ⟨rfl, rfl⟩

theorem firstFaults_flags (safe : Bool) (recs : List ZoneRec) (f : FaultSet) :
    (firstFaults safe recs f).clockUnknown = true ∧ (firstFaults safe recs f).safeConfig = safe := by
  have keeps (f : FaultSet) : (recs.foldl FaultSet.followLine f).clockUnknown = f.clockUnknown
      ∧ (recs.foldl FaultSet.followLine f).safeConfig = f.safeConfig := by
    induction recs generalizing f with
    | nil => exact ⟨rfl, rfl⟩
    | cons z rest ih =>
      obtain ⟨clock, config⟩ := ih (f.followLine z)
      obtain ⟨clock', config'⟩ := followLine_flags f z
      exact ⟨clock.trans clock', config.trans config'⟩
  exact keeps _

/-- The FAULT frame a node on the line sends at an event. -/
def faultFrame (e : Env) (r : ReportUnit) : Frame := mkFrame e .safety 0 (.fault { seq := r.seq, set := r.faults })

/-- An event that changes the set, on an empty queue: the FAULT frame is its only frame. -/
theorem faultEvent_of_empty {e : Env} {w : Works} {f : FaultSet → FaultSet} (line : e.onLine) (empty : w.line.tx = [])
    (changed : f w.report.faults ≠ w.report.faults) :
    ∃ r : ReportUnit, r.faults = f w.report.faults ∧ r.counters = (w.bump .faultChanges).report.counters
      ∧ w.faultEvent e f = { w with report := r, line := { w.line with tx := queuedAmong (faultFrame e r) [] } } := by
  refine ⟨{ faults := f w.report.faults, seq := (w.report.seq + 1) % 256, counters := (w.bump .faultChanges).report.counters },
    rfl, rfl, ?_⟩
  rw [Works.faultEvent, if_neg changed]
  refine (hand_of_room _ _ line ?_).trans ?_
  · show w.line.tx.length < txCapacity
    rw [empty]
    decide
  · rw [← empty]
    rfl

/-! ### The node in LISTEN -/

/-- Entry to LISTEN with the FAULT frame alone in the queue. -/
theorem enterListen_of_fault {n : Node} {f : Frame} (safety : f.cls = .safety) (queue : n.ws.line.tx = queuedAmong f []) :
    ∃ tx, tx.map (·.frame) = [f, profileFrame (listening n.env) n.ws true]
      ∧ enterListen n = { env := listening n.env, ws := { n.ws with line := { n.ws.line with tx := tx } } } := by
  have room : n.ws.room := by
    unfold Works.room
    rw [queue]
    show 1 < txCapacity
    decide
  refine ⟨_, ?_, congrArg (Node.mk (listening n.env)) (hand_of_room _ _ (Or.inl rfl) room)⟩
  rw [queue]
  simp [queuedAmong, enqueueFrame, profileFrame, mkFrame, safety, Cls.better, Cls.rank]
  exact ⟨rfl, rfl⟩

/-- What the node is once the image has been taken. -/
theorem imageTaken_listens {n : Node} {image : Option (List Byte)} {cfg : Loaded} {count : Nat} {safe : Bool}
    (start : n.env.part.state = .start) (reading : n.env.part.phase = .readingImage)
    (loaded : loadConfiguration image n.env.part.setB = (cfg, count, safe)) (empty : n.ws.line.tx = [])
    (none : n.ws.report.faults = {}) :
    ∃ (m : Node) (r : ReportUnit) (tx : List TxFrame), imageTaken image n = m
      ∧ m.env = listening (imageEnv cfg safe n.env)
      ∧ m.ws = { imageWorks cfg safe n.env n.ws with report := r, line := { n.ws.line with tx := tx } }
      ∧ r.faults.clockUnknown = true ∧ r.faults.safeConfig = safe
      ∧ tx.map (·.frame) = [faultFrame m.env r, profileFrame m.env m.ws true]
      ∧ (n.ws.report.wf → m.ws.counter .correctedFields = min 65535 (n.ws.counter .correctedFields + count)) := by
  let built := imageWorks cfg safe n.env n.ws
  let recs := buildZones cfg safe n.env.part.node n.env.pins.zflt
  obtain ⟨counters, counted⟩ := bumpBy_eq .correctedFields count built
  have flags := firstFaults_flags safe recs {}
  have before : (built.bumpBy .correctedFields count).report.faults = {} := by
    rw [counted]
    exact none
  have changed : firstFaults safe recs (built.bumpBy .correctedFields count).report.faults
      ≠ (built.bumpBy .correctedFields count).report.faults := by
    rw [before]
    intro same
    rw [same] at flags
    exact absurd flags.1 (by decide)
  have queue : (built.bumpBy .correctedFields count).line.tx = [] := by
    rw [counted]
    exact empty
  obtain ⟨r, faults, counts, event⟩ := faultEvent_of_empty (e := imageEnv cfg safe n.env) (Or.inl rfl) queue changed
  let queued := queuedAmong (faultFrame (imageEnv cfg safe n.env) r) []
  obtain ⟨tx, frames, entered⟩ := enterListen_of_fault (f := faultFrame (imageEnv cfg safe n.env) r)
    (n := ⟨imageEnv cfg safe n.env, { built with report := r, line := { n.ws.line with tx := queued } }⟩) rfl rfl
  rw [before] at faults
  rw [← faults] at flags
  have whole := imageTaken_eq (n := n) start reading loaded
  rw [event, counted] at whole
  refine ⟨_, r, tx, whole.trans entered, rfl, rfl, flags.1, flags.2, frames, fun wf => ?_⟩
  have apart : ((built.bumpBy .correctedFields count).bump .faultChanges).counter .correctedFields
      = (built.bumpBy .correctedFields count).counter .correctedFields := by
    rw [Works.counter_bump, if_neg (fun h => absurd h.1 (by decide))]
  have total := apart.trans (counter_bumpBy (w := built) wf .correctedFields count)
  unfold Works.counter at total ⊢
  rw [← counts] at total
  exact total

end Sys2Proof.Proofs.LeavingStart
end


section
/-! The configuration image (section 11.3): each setting with its default and its correction, and the ranges of what is
kept of the entries.  With the node's leaving of START it settles O4. -/

namespace Sys2Proof.Proofs.ImageFields

open Sys2Proof Sys2Proof.Machine Sys2Proof.Proofs.Effects Sys2Proof.Proofs.Commands Sys2Proof.Proofs.LeavingStart

/-! ### Settings (R190) -/

/-- A setting of Table 11-11 as the image and Table 9-1 give it. -/
structure SettingField where
  value : Nat
  ones : Nat
  low : Nat
  high : Nat
  default : Nat

/-- A setting is out of range, and not all ones. -/
def SettingField.corrected (f : SettingField) : Bool :=
  decide (f.value ≠ f.ones ∧ (f.value < f.low ∨ f.high < f.value))

/-- What is taken for a setting. -/
def SettingField.taken (f : SettingField) : Taken Nat := takeSetting f.value f.ones f.low f.high f.default

theorem taken_value (f : SettingField) :
    f.taken.1 = if f.value = f.ones ∨ f.value < f.low ∨ f.high < f.value then f.default else f.value := by
  unfold SettingField.taken takeSetting
  split
  · next ones => simp [ones]
  · next some =>
    by_cases range : f.low ≤ f.value ∧ f.value ≤ f.high
    · rw [if_pos range, if_neg (by omega)]
    · rw [if_neg range, if_pos (by omega)]

theorem taken_count (f : SettingField) : f.taken.2 = if f.corrected then 1 else 0 := by
  unfold SettingField.taken takeSetting SettingField.corrected
  split
  · next ones => simp [ones]
  · next some =>
    by_cases range : f.low ≤ f.value ∧ f.value ≤ f.high
    · rw [if_pos range, if_neg (by simp only [decide_eq_true_eq]; omega)]
    · rw [if_neg range, if_pos (by simp only [decide_eq_true_eq]; omega)]

/-- The corrections of several settings are those of them that are corrected. -/
theorem sum_taken_counts (l : List SettingField) : (l.map (·.taken.2)).sum = (l.filter (·.corrected)).length := by
  induction l with
  | nil => rfl
  | cons f rest ih =>
    rw [List.map_cons, List.sum_cons, ih, taken_count, List.filter_cons]
    split
    · rw [List.length_cons]
      omega
    · omega

/-- The thirteen settings of Table 11-11. -/
def settingFields (b : List Byte) (d : Settings) : List SettingField :=
  [⟨twoAt b 8, 65535, 0, 2000, d.settle⟩, ⟨byteAt b 10, 255, 0, 30, d.hold⟩, ⟨byteAt b 11, 255, 1, 30, d.gather⟩,
   ⟨byteAt b 12, 255, 5, 120, d.waitLimit⟩, ⟨twoAt b 13, 65535, 0, 600, d.grace⟩, ⟨byteAt b 15, 255, 1, 30, d.theta⟩,
   ⟨byteAt b 16, 255, 1, 30, d.delta⟩, ⟨byteAt b 17, 255, 1, 15, d.budget⟩, ⟨twoAt b 18, 65535, 504, 8064, d.almostEmpty⟩,
   ⟨twoAt b 20, 65535, 504, 16128, d.prefill⟩, ⟨byteAt b 22, 255, 1, 10, d.debounce⟩,
   ⟨twoAt b 23, 65535, 30, 1800, d.dwell⟩, ⟨byteAt b 25, 255, 0, 10, d.release⟩]

theorem takeSettings_count (b : List Byte) (d : Settings) :
    (takeSettings b d).2 = ((settingFields b d).filter (·.corrected)).length := by
  rw [← sum_taken_counts]
  simp only [takeSettings, settingFields, SettingField.taken, List.map_cons, List.map_nil, List.sum_cons, List.sum_nil]
  omega

/-- A setting beside what is taken for it, in the order the statement lists them. -/
def SettingField.row (f : SettingField) : Nat × Nat × Nat × Nat × Nat × Nat :=
  (f.taken.1, f.value, f.ones, f.low, f.high, f.default)

/-! ### Mask and template map -/

theorem byteAt_lt (b : List Byte) (i : Nat) : byteAt b i < 256 := (b.getD i 0).isLt

theorem takeMask_bits (b : List Byte) :
    (takeMask b).normal = (byteAt b 26).testBit 7 ∧ (takeMask b).afterStart = (byteAt b 26).testBit 6
      ∧ (takeMask b).neverStarted = (byteAt b 26).testBit 5 := by
  have small := byteAt_lt b 26
  simp only [takeMask, Nat.testBit_eq_decide_div_mod_eq]
  refine ⟨?_, trivial, trivial⟩
  congr 1
  simp only [eq_iff_iff]
  omega

theorem mapBits_eq (b : List Byte) (t : Nat) : mapBits b t = byteAt b (593 + t / 4) / 2 ^ (6 - 2 * (t % 4)) % 4 := by
  have four : (4 : Nat) ^ (3 - t % 4) = 2 ^ (6 - 2 * (t % 4)) := by
    rw [show (4 : Nat) = 2 ^ 2 from rfl, ← Nat.pow_mul]
    congr 1
    omega
  rw [mapBits, four]

theorem takeTemplateMap_get (b : List Byte) {t : Nat} (small : t < 256) :
    (takeTemplateMap b).1[t]? = some (decide (byteAt b (593 + t / 4) / 2 ^ (6 - 2 * (t % 4)) % 4 = 1)) := by
  simp [takeTemplateMap, small, mapBits_eq]

/-! ### Zone lists and triggers (R191) -/

theorem takeCount_value (n limit : Nat) : (takeCount n limit).1 = min n limit := by
  unfold takeCount
  split <;> simp <;> omega

theorem mem_takeZones {l : List Nat} {z : Nat} (mem : z ∈ (takeZones l).1) : 1 ≤ z ∧ z ≤ 191 :=
  of_decide_eq_true (List.mem_filter.mp mem).2

/-- A zone list is no longer than its count, which is cut to its maximum. -/
theorem length_takeZones (b : List Byte) (i n limit : Nat) :
    (takeZones (numbersAt b i (takeCount n limit).1)).1.length ≤ limit := by
  refine (List.length_filter_le ..).trans ?_
  rw [numbersAt, List.length_map, List.length_range, takeCount_value]
  exact Nat.min_le_right ..

theorem rank_ofBits (n : Nat) : (Cls.ofBits n).rank = n % 4 := by
  unfold Cls.ofBits
  split <;> simp_all [Cls.rank]
  omega

/-- The zones listed from a place on. -/
theorem takeZones_numbersAt (b : List Byte) (i n : Nat) :
    (takeZones (numbersAt b i n)).1
      = ((List.range n).map (fun k => byteAt b (i + k))).filter (fun z => decide (1 ≤ z ∧ z ≤ 191)) := rfl

/-- A trigger entry as Table 11-15 gives it. -/
theorem takeTrigger_fields (b : List Byte) (i : Nat) :
    let t := (takeTrigger b i).1
    let gap := byteAt b (i + 2)
    let required := min (byteAt b (i + 3)) 16
    let optional := min (byteAt b (i + 4)) (16 - required)
    let zones (from_ n : Nat) : List Nat :=
      ((List.range n).map (fun k => byteAt b (from_ + k))).filter (fun z => decide (1 ≤ z ∧ z ≤ 191))
    t.template = (if 128 ≤ byteAt b i ∧ 2 ≤ gap ∧ gap ≤ 60 then some (byteAt b (i + 1)) else none)
      ∧ t.cls.rank = byteAt b i / 32 % 4 ∧ t.gap = gap
      ∧ t.required = zones (i + 5) required ∧ t.optional = zones (i + 5 + required) optional := by
  refine ⟨rfl, rank_ofBits _, rfl, ?_, ?_⟩
  · rw [← takeCount_value]
    rfl
  · rw [← takeCount_value (byteAt b (i + 3)), ← takeCount_value]
    rfl

theorem takeTrigger_inRange (b : List Byte) (i : Nat) :
    (takeTrigger b i).1.required.length + (takeTrigger b i).1.optional.length ≤ 16
      ∧ ∀ z ∈ (takeTrigger b i).1.required ++ (takeTrigger b i).1.optional, 1 ≤ z ∧ z ≤ 191 := by
  refine ⟨?_, fun z mem => ?_⟩
  · have required : (takeTrigger b i).1.required.length ≤ (takeCount (byteAt b (i + 3)) 16).1 := by
      refine (List.length_filter_le ..).trans ?_
      rw [numbersAt, List.length_map, List.length_range]
    have optional : (takeTrigger b i).1.optional.length ≤ 16 - (takeCount (byteAt b (i + 3)) 16).1 :=
      length_takeZones b _ _ _
    have cut := takeCount_value (byteAt b (i + 3)) 16
    omega
  · rcases List.mem_append.mp mem with required | optional
    · exact mem_takeZones required
    · exact mem_takeZones optional

/-! ### Faces and outputs (R191) -/

theorem takeFace_inRange {b : List Byte} {i : Nat} {named : List Nat} {f : FaceCfg} (kept : (takeFace b i named).1 = some f) :
    1 ≤ f.number ∧ f.number ≤ 64 ∧ 1 ≤ f.length ∧ f.length ≤ 16
      ∧ f.zones.length ≤ 4 ∧ f.concourse.length ≤ 12 ∧ ∀ z ∈ f.zones ++ f.concourse, 1 ≤ z ∧ z ≤ 191 := by
  unfold takeFace at kept
  dsimp only at kept
  split at kept
  · exact absurd kept (by simp)
  · next present =>
    split at kept
    · exact absurd kept (by simp)
    · next named =>
      obtain rfl := Option.some.inj kept
      refine ⟨by dsimp only; omega, by dsimp only; omega, ?_, ?_, length_takeZones .., length_takeZones .., fun z mem => ?_⟩
      · dsimp only
        split <;> omega
      · dsimp only
        split <;> omega
      · rcases List.mem_append.mp mem with zone | concourse
        · exact mem_takeZones zone
        · exact mem_takeZones concourse

theorem mem_takeFaces {b : List Byte} {named places : List Nat} {f : FaceCfg} (mem : some f ∈ (takeFaces b named places).1) :
    ∃ i named, (takeFace b i named).1 = some f := by
  induction places generalizing named with
  | nil => exact absurd mem List.not_mem_nil
  | cons i rest ih =>
    rcases List.mem_cons.mp mem with here | later
    · exact ⟨i, named, here.symm⟩
    · exact ih later

theorem takeLevel_consistent (b : List Byte) (i : Nat) : levelsConsistent (takeLevel b i).1 = true := by
  unfold takeLevel
  dsimp only
  split
  · assumption
  · rfl

theorem mem_takeOutputs {b : List Byte} {named places : List Nat} {o : OutputCfg}
    (mem : some o ∈ (takeOutputs b named places).1) :
    1 ≤ o.zone ∧ o.zone ≤ 191 ∧ levelsConsistent o.level = true := by
  induction places generalizing named with
  | nil => exact absurd mem List.not_mem_nil
  | cons i rest ih =>
    unfold takeOutputs at mem
    dsimp only at mem
    split at mem
    · rcases List.mem_cons.mp mem with here | later
      · exact absurd here (by simp)
      · exact ih later
    · next present =>
      split at mem
      · rcases List.mem_cons.mp mem with here | later
        · exact absurd here (by simp)
        · exact ih later
      · next fresh =>
        rcases List.mem_cons.mp mem with here | later
        · obtain rfl := Option.some.inj here
          exact ⟨by dsimp only; omega, by dsimp only; omega, takeLevel_consistent b i⟩
        · exact ih later

end Sys2Proof.Proofs.ImageFields
end


section
/-! The start: straps, image and entry to LISTEN.  Settles O4. -/

namespace Sys2Proof.Proofs.StartsFromImage

open Sys2Proof Sys2Proof.Machine Sys2Proof.Proofs.Effects Sys2Proof.Proofs.Commands
open Sys2Proof.Proofs.LeavingStart Sys2Proof.Proofs.ImageFields

/-! ### RESET_RELEASE (R172) -/

/-- The node after the straps have been sampled. -/
def strapped (node : Nat) (setB : Bool) (e : Env) : Env :=
  { e with part := { e.part with
      node := node, setB := setB, phase := if node = 0 then .heldByNodeZero else .readingImage } }

theorem resetReleased_eq {n : Node} {node : Nat} (setB : Bool) (fits : node ≤ 63) (start : n.env.part.state = .start)
    (asserted : n.env.part.phase = .resetAsserted) :
    resetReleased node setB n = { n with env := strapped node setB n.env } := by
  have same : node % 64 = node := Nat.mod_eq_of_lt (by omega)
  rw [resetReleased, if_pos ⟨start, asserted⟩]
  dsimp only
  rw [same]
  rfl

/-- Node number 0 raises the FAULT output (R181). -/
theorem faultOutput_of_node_zero {e : Env} (setB : Bool) (w : Works) (start : e.part.state = .start) :
    faultOutput (strapped 0 setB e) w = true := by
  simp [faultOutput, strapped, start]

/-! ### The configuration loaded (R172, R190) -/

theorem load_of_accepted {b : List Byte} (setB : Bool) (accepted : imageAccepted b = true) :
    loadConfiguration (some b) setB = ((takeImage b setB).1, (takeImage b setB).2, false) := if_pos accepted

theorem load_of_refused {image : Option (List Byte)} (setB : Bool)
    (refused : image = none ∨ ∃ b, image = some b ∧ imageAccepted b = false) :
    loadConfiguration image setB = (safeConfiguration setB, 0, true) := by
  rcases refused with rfl | ⟨b, rfl, bad⟩
  · rfl
  · exact if_neg (by simp [bad])

theorem zones_buildZones (cfg : Loaded) (node : Nat) (zflt : List Bool) :
    (buildZones cfg false node zflt).map (·.zone) = (configuredOutputs cfg).map (·.2.zone) := List.map_map ..

/-! ### The fields of an accepted image -/

theorem rows_eq (b : List Byte) (setB : Bool) :
    ∀ x ∈ (settingFields b (defaultSet setB)).map SettingField.row,
      x.1 = if x.2.1 = x.2.2.1 ∨ x.2.1 < x.2.2.2.1 ∨ x.2.2.2.2.1 < x.2.1 then x.2.2.2.2.2 else x.2.1 := by
  intro x mem
  obtain ⟨f, -, rfl⟩ := List.mem_map.mp mem
  exact taken_value f

/-- The rows that are out of range are the settings that are corrected. -/
theorem length_corrected_rows (l : List SettingField) :
    ((l.map SettingField.row).filter
      (fun x => decide (x.2.1 ≠ x.2.2.1 ∧ (x.2.1 < x.2.2.2.1 ∨ x.2.2.2.2.1 < x.2.1)))).length
      = (l.filter (·.corrected)).length := by
  rw [List.filter_map, List.length_map]
  rfl

/-- The triggers are read at their two places. -/
theorem trigger_at {b : List Byte} {setB : Bool} {i : Nat} {t : TriggerCfg} (found : (takeImage b setB).1.triggers[i]? = some t) :
    t = (takeTrigger b (551 + 21 * i)).1 := by
  match i with
  | 0 => exact (Option.some.inj found).symm
  | 1 => exact (Option.some.inj found).symm
  | _ + 2 => exact absurd found (by simp [takeImage])

/-- Settles O4: RESET_RELEASE by its equation, the entry to LISTEN from the works built, and the image field by field. -/
theorem startReadsStrapsAndImage : Obligations.StartReadsStrapsAndImage := by
  unfold Obligations.StartReadsStrapsAndImage
  refine ⟨fun s node dset rested fits start asserted => ?_, fun s image rested start reading empty none => ?_,
    fun b setB => ?_⟩
  · have released : exec (.resetRelease node dset) s = .next (s.withEnv (strapped node dset s.env)) :=
      exec_of_effect_rested (resetReleased_eq dset fits start asserted) rested
    refine ⟨released, ?_⟩
    rintro rfl t next
    obtain rfl := Host.Outcome.next.inj (released.symm.trans next)
    exact faultOutput_of_node_zero dset s.ws start
  · rcases loaded : loadConfiguration image s.env.part.setB with ⟨cfg, count, safe⟩
    obtain ⟨⟨e, w⟩, r, tx, taken, rfl, rfl, clock, config, frames, corrected⟩ :=
      imageTaken_listens (n := s.node) start reading loaded empty none
    refine ⟨_, exec_of_effect_rested (c := .configImageTaken image) taken rested, rfl, rfl, clock, config, frames,
      fun b image accepted => ?_, fun refused => ?_⟩
    · subst image
      obtain ⟨rfl, rfl, rfl⟩ : cfg = _ ∧ count = _ ∧ safe = _ := by
        simpa using loaded.symm.trans (load_of_accepted s.env.part.setB accepted)
      exact ⟨rfl, rfl, corrected, rfl, zones_buildZones _ s.env.part.node s.env.pins.zflt⟩
    · obtain ⟨rfl, rfl, rfl⟩ : cfg = _ ∧ count = _ ∧ safe = _ := by
        simpa using loaded.symm.trans (load_of_refused s.env.part.setB refused)
      exact ⟨rfl, rfl, rfl⟩
  · refine ⟨rows_eq b setB, ?_, (takeMask_bits b).1, (takeMask_bits b).2.1, (takeMask_bits b).2.2,
      ⟨by simp [takeImage, takeTemplateMap], fun t small => takeTemplateMap_get b small⟩,
      ⟨rfl, fun i t found => trigger_at found ▸ takeTrigger_fields b _⟩, fun f mem => ?_, fun o mem => mem_takeOutputs mem,
      fun t mem => ?_⟩
    · have settings : (takeSettings b (defaultSet setB)).2 = _ :=
        (takeSettings_count b (defaultSet setB)).trans (length_corrected_rows _).symm
      exact congrArg (fun n => n + (takeFaces b [] [27, 132, 237, 342]).2
        + (takeOutputs b [] [447, 460, 473, 486, 499, 512, 525, 538]).2
        + (takeTrigger b 551).2 + (takeTrigger b 572).2 + (takeTemplateMap b).2) settings
    · obtain ⟨i, named, kept⟩ := mem_takeFaces mem
      exact takeFace_inRange kept
    · obtain ⟨i, found⟩ := List.getElem?_of_mem mem
      exact trigger_at found ▸ takeTrigger_inRange b _

end Sys2Proof.Proofs.StartsFromImage
end


section
/-! The counter PRESENCE-WITHOUT-CALL (Table 10-2) counts at the Face Monitor alone: no work of the line, the zones, the
fetch streams and the channels counts there.  One equation an operation; the next file goes on to the jobs. -/

namespace Sys2Proof.Proofs.UncalledPresence

open Sys2Proof Sys2Proof.Machine

/-- The value of PRESENCE-WITHOUT-CALL. -/
def uncalled (r : ReportUnit) : Nat := r.counters.getD Counter.presenceWithoutCall.index 0

theorem counter_eq_uncalled (w : Works) : w.counter .presenceWithoutCall = uncalled w.report := rfl

@[simp] theorem uncalled_bump {c : Counter} (w : Works) (other : c ≠ .presenceWithoutCall) :
    uncalled (w.bump c).report = uncalled w.report := by
  have apart : c.index ≠ Counter.presenceWithoutCall.index := by cases c <;> simp_all [Counter.index]
  exact (Works.counter_bump w c .presenceWithoutCall).trans (if_neg fun h => apart h.1)

theorem uncalled_foldl {α : Type} {f : Works → α → Works} (each : ∀ w a, uncalled (f w a).report = uncalled w.report)
    (l : List α) (w : Works) : uncalled (l.foldl f w).report = uncalled w.report := by
  induction l generalizing w with
  | nil => rfl
  | cons a rest ih => exact (ih (f w a)).trans (each w a)

/-! ### The Line Interface (R167) -/

@[simp] theorem uncalled_unsent (f : Frame) (p : TxPurpose) (w : Works) :
    uncalled (w.unsent f p).report = uncalled w.report := by
  unfold Works.unsent
  split <;> simp

@[simp] theorem uncalled_hand (e : Env) (f : Frame) (p : TxPurpose) (w : Works) :
    uncalled (w.hand e f p).report = uncalled w.report := by
  unfold Works.hand
  repeat' split
  all_goals simp

@[simp] theorem uncalled_handAll (e : Env) (fs : List Frame) (w : Works) :
    uncalled (w.handAll e fs).report = uncalled w.report := uncalled_foldl (fun w _ => uncalled_hand e _ _ w) fs w

/-! ### The Zone Arbiter -/

@[simp] theorem uncalled_reportAmp (e : Env) (zone : Nat) (a b : Bool) (w : Works) :
    uncalled (w.reportAmp e zone a b).report = uncalled w.report := by
  unfold Works.reportAmp
  repeat' split
  all_goals simp

@[simp] theorem uncalled_setZone (e : Env) (z : ZoneRec) (w : Works) :
    uncalled (w.setZone e z).report = uncalled w.report := by
  unfold Works.setZone
  simp

@[simp] theorem uncalled_speak (e : Env) (z : ZoneRec) (w : Works) :
    uncalled (w.speak e z).report = uncalled w.report := by
  unfold Works.speak
  split <;> simp

@[simp] theorem uncalled_queueAsk (e : Env) (z : ZoneRec) (a : Ask) (w : Works) :
    uncalled (w.queueAsk e z a).1.report = uncalled w.report := by
  unfold Works.queueAsk
  simp

@[simp] theorem uncalled_askRecord (e : Env) (z : ZoneRec) (a : Ask) (w : Works) :
    uncalled (w.askRecord e z a).1.report = uncalled w.report := by
  unfold Works.askRecord
  dsimp only
  repeat' split
  all_goals simp

@[simp] theorem uncalled_askZones (e : Env) (a : Ask) (zones : List Nat) (w : Works) :
    uncalled (Works.askZones e a zones w).1.report = uncalled w.report := by
  induction zones generalizing w with
  | nil => rfl
  | cons zone rest ih =>
    unfold Works.askZones
    split <;> simp [ih]

@[simp] theorem uncalled_revoke (e : Env) (rs : List Revocation) (w : Works) :
    uncalled (w.revoke e rs).report = uncalled w.report := by
  unfold Works.revoke
  simp

@[simp] theorem uncalled_tell (e : Env) (x : Waiter) (zone : Nat) (v : Verdict) (w : Works) :
    uncalled (w.tell e x zone v).report = uncalled w.report := by
  unfold Works.tell
  split <;> simp

@[simp] theorem uncalled_moveOn (e : Env) (z : ZoneRec) (old : Cls) (w : Works) :
    uncalled (w.moveOn e z old).report = uncalled w.report := by
  have denied (v : Works) : uncalled ((nextHead e w z z.waiting).1.foldl (fun w d => w.tell e d.1 z.zone (.denied d.2)) v).report
      = uncalled v.report := uncalled_foldl (fun v _ => uncalled_tell e _ _ _ v) _ v
  unfold Works.moveOn
  dsimp only
  split
  · rw [uncalled_tell, denied]
    split <;> simp
  · rw [denied, uncalled_setZone]

@[simp] theorem uncalled_leaveOne (e : Env) (node tag zone : Nat) (w : Works) :
    uncalled (w.leaveOne e node tag zone).report = uncalled w.report := by
  unfold Works.leaveOne
  repeat' split
  all_goals simp

@[simp] theorem uncalled_leaveZones (e : Env) (node tag : Nat) (zones : List Nat) (w : Works) :
    uncalled (w.leaveZones e node tag zones).report = uncalled w.report :=
  uncalled_foldl (fun w _ => uncalled_leaveOne e node tag _ w) zones w

/-! ### The Fetch Engine and the channels -/

@[simp] theorem uncalled_failPhrase (n position : Nat) (essential : Bool) (w : Works) :
    uncalled (w.failPhrase n position essential).report = uncalled w.report := by
  unfold Works.failPhrase
  simp

@[simp] theorem uncalled_takeUp (n pos : Nat) (l : List ListEntry) (w : Works) :
    uncalled (Works.takeUp n pos l w).report = uncalled w.report := by
  induction l generalizing pos w with
  | nil => simp [Works.takeUp]
  | cons entry rest ih =>
    cases entry with
    | gap item len =>
      unfold Works.takeUp
      dsimp only
      split <;> simp [ih]
    | phrase p =>
      unfold Works.takeUp
      dsimp only
      repeat' split
      all_goals simp [ih]

@[simp] theorem uncalled_beginList (e : Env) (n : Nat) (list : List ListEntry) (w : Works) :
    uncalled (w.beginList e n list).report = uncalled w.report := by
  unfold Works.beginList
  simp

@[simp] theorem uncalled_startStream (e : Env) (n : Nat) (list : List ListEntry) (w : Works) :
    uncalled (w.startStream e n list).report = uncalled w.report := by
  unfold Works.startStream
  dsimp only
  split <;> simp

@[simp] theorem uncalled_issueAudio (n : Nat) (w : Works) :
    uncalled (w.issueAudio n).report = uncalled w.report := by
  unfold Works.issueAudio
  split <;> simp

@[simp] theorem uncalled_lookAtFlash (e : Env) (w : Works) :
    uncalled (w.lookAtFlash e).report = uncalled w.report := by
  unfold Works.lookAtFlash
  repeat' split
  all_goals simp

@[simp] theorem uncalled_askRead (channel : Nat) (read : BindRead) (w : Works) :
    uncalled (w.askRead channel read).report = uncalled w.report := rfl

@[simp] theorem uncalled_testStart (e : Env) (n : Nat) (w : Works) :
    uncalled (w.testStart e n).report = uncalled w.report := by
  unfold Works.testStart
  dsimp only
  repeat' split
  all_goals simp

@[simp] theorem uncalled_release (n : Nat) (w : Works) :
    uncalled (w.release n).report = uncalled w.report := by
  unfold Works.release
  dsimp only
  split <;> simp

@[simp] theorem uncalled_letGo (n : Nat) (w : Works) :
    uncalled (w.letGo n).report = uncalled w.report := by
  unfold Works.letGo
  split <;> simp

@[simp] theorem uncalled_stopAtBoundary (n : Nat) (w : Works) :
    uncalled (w.stopAtBoundary n).report = uncalled w.report := by
  unfold Works.stopAtBoundary
  repeat' split
  all_goals simp

@[simp] theorem uncalled_reserve (n : Nat) (w : Works) :
    uncalled (w.reserve n).report = uncalled w.report := by
  unfold Works.reserve
  split <;> simp

@[simp] theorem uncalled_fillFrom (e : Env) (n : Nat) (list : List ListEntry) (w : Works) :
    uncalled (w.fillFrom e n list).report = uncalled w.report := by
  unfold Works.fillFrom
  simp

end Sys2Proof.Proofs.UncalledPresence
end


section
/-! The counter PRESENCE-WITHOUT-CALL through the work of the Trunk and Request Unit and of the Job Table, and so through
the settling of any command. -/

namespace Sys2Proof.Proofs.UncalledSettling

open Sys2Proof Sys2Proof.Machine Sys2Proof.Proofs.UncalledPresence

/-! ### The Trunk and Request Unit: giving back, and the trunk round -/

@[simp] theorem uncalled_giveBack (e : Env) (r : JobRec) (gs : List Grant) (w : Works) :
    uncalled (w.giveBack e r gs).report = uncalled w.report := by
  unfold Works.giveBack
  dsimp only
  split <;> simp

@[simp] theorem uncalled_dropTrunk (r : JobRec) (w : Works) :
    uncalled (w.dropTrunk r).report = uncalled w.report := by
  unfold Works.dropTrunk
  split <;> simp

@[simp] theorem uncalled_giveUpTrunk (e : Env) (r : JobRec) (w : Works) :
    uncalled (w.giveUpTrunk e r).report = uncalled w.report := by
  unfold Works.giveUpTrunk
  split <;> simp

@[simp] theorem uncalled_abandonSeize (r : JobRec) (w : Works) :
    uncalled (w.abandonSeize r).report = uncalled w.report := by
  unfold Works.abandonSeize
  split <;> simp

@[simp] theorem uncalled_releaseGathering (e : Env) (tag : Nat) (w : Works) :
    uncalled (w.releaseGathering e tag).report = uncalled w.report := by
  unfold Works.releaseGathering
  split <;> simp

@[simp] theorem uncalled_trunkRoundFails (e : Env) (r : JobRec) (w : Works) :
    uncalled (w.trunkRoundFails e r).report = uncalled w.report := by
  unfold Works.trunkRoundFails
  split <;> simp

@[simp] theorem uncalled_chooseTrunk (e : Env) (tag : Nat) (w : Works) :
    uncalled (w.chooseTrunk e tag).report = uncalled w.report := by
  unfold Works.chooseTrunk
  repeat' split
  all_goals simp

@[simp] theorem uncalled_seizeUnsent (e : Env) (tag trunk : Nat) (w : Works) :
    uncalled (w.seizeUnsent e tag trunk).report = uncalled w.report := by
  unfold Works.seizeUnsent
  repeat' split
  all_goals simp

@[simp] theorem uncalled_trunkWaitEnds (e : Env) (tag : Nat) (w : Works) :
    uncalled (w.trunkWaitEnds e tag).report = uncalled w.report := by
  unfold Works.trunkWaitEnds
  repeat' split
  all_goals simp

/-! ### The zone round -/

@[simp] theorem uncalled_roundFails (e : Env) (tag : Nat) (conflict : Bool) (w : Works) :
    uncalled (w.roundFails e tag conflict).report = uncalled w.report := by
  unfold Works.roundFails
  repeat' split
  all_goals simp

@[simp] theorem uncalled_losesZone (e : Env) (tag : Nat) (u : UnitReport) (w : Works) :
    uncalled (w.losesZone e tag u).report = uncalled w.report := by
  unfold Works.losesZone
  simp

@[simp] theorem uncalled_trunkConflict (e : Env) (tag : Nat) (w : Works) :
    uncalled (w.trunkConflict e tag).report = uncalled w.report := by
  unfold Works.trunkConflict
  split <;> simp

@[simp] theorem uncalled_takeQueued (e : Env) (tag : Nat) (entry : Grant) (position : Nat) (w : Works) :
    uncalled (w.takeQueued e tag entry position).report = uncalled w.report := by
  unfold Works.takeQueued
  dsimp only
  split <;> simp

@[simp] theorem uncalled_takeDenial (e : Env) (tag : Nat) (entry : Grant) (reason : Denial) (w : Works) :
    uncalled (w.takeDenial e tag entry reason).report = uncalled w.report := by
  unfold Works.takeDenial
  repeat' split
  all_goals simp

@[simp] theorem uncalled_takeVerdict (e : Env) (tag : Nat) (entry : Grant) (v : Verdict) (w : Works) :
    uncalled (w.takeVerdict e tag entry v).report = uncalled w.report := by
  unfold Works.takeVerdict
  repeat' split
  all_goals simp

@[simp] theorem uncalled_testRound (e : Env) (tag : Nat) (w : Works) :
    uncalled (w.testRound e tag).report = uncalled w.report := by
  unfold Works.testRound
  dsimp only
  repeat' split
  all_goals simp

@[simp] theorem uncalled_lateAnswer (e : Env) (tag zone : Nat) (v : Verdict) (remote : Option Cls) (w : Works) :
    uncalled (w.lateAnswer e tag zone v remote).report = uncalled w.report := by
  unfold Works.lateAnswer
  split <;> simp

@[simp] theorem uncalled_verdictReaches (e : Env) (tag zone : Nat) (v : Verdict) (remote : Option Cls) (w : Works) :
    uncalled (w.verdictReaches e tag zone v remote).report = uncalled w.report := by
  unfold Works.verdictReaches
  split <;> simp

@[simp] theorem uncalled_askOwn (e : Env) (r : JobRec) (w : Works) : uncalled (w.askOwn e r).report = uncalled w.report := by
  unfold Works.askOwn
  dsimp only
  split
  · rfl
  · refine (uncalled_foldl (fun w v => ?_) _ _).trans (by simp)
    repeat' split
    all_goals simp

@[simp] theorem uncalled_askOthers (e : Env) (r : JobRec) (w : Works) :
    uncalled (w.askOthers e r).report = uncalled w.report := by
  unfold Works.askOthers
  dsimp only
  split <;> simp

@[simp] theorem uncalled_startRound (e : Env) (tag : Nat) (w : Works) :
    uncalled (w.startRound e tag).report = uncalled w.report := by
  unfold Works.startRound
  dsimp only
  repeat' split
  all_goals simp

@[simp] theorem uncalled_startAnswers (e : Env) (tag serial : Nat) (w : Works) :
    uncalled (w.startAnswers e tag serial).report = uncalled w.report := by
  unfold Works.startAnswers
  repeat' split
  all_goals simp

/-! ### An airing, and zones lost -/

@[simp] theorem uncalled_readyExpires (e : Env) (tag : Nat) (w : Works) :
    uncalled (w.readyExpires e tag).report = uncalled w.report := by
  unfold Works.readyExpires
  repeat' split
  all_goals simp

@[simp] theorem uncalled_airingStarted (e : Env) (tag : Nat) (w : Works) :
    uncalled (w.airingStarted e tag).report = uncalled w.report := by
  unfold Works.airingStarted
  dsimp only
  repeat' split
  all_goals simp

@[simp] theorem uncalled_beginGathering (e : Env) (tag : Nat) (w : Works) :
    uncalled (w.beginGathering e tag).report = uncalled w.report := by
  unfold Works.beginGathering
  dsimp only
  repeat' split
  all_goals simp

@[simp] theorem uncalled_takeRevocation (e : Env) (tag zone : Nat) (reason : Reason) (w : Works) :
    uncalled (w.takeRevocation e tag zone reason).report = uncalled w.report := by
  unfold Works.takeRevocation
  repeat' split
  all_goals simp

/-! ### The ends of jobs -/

@[simp] theorem uncalled_keepLastAired (e : Env) (r : JobRec) (w : Works) :
    uncalled (w.keepLastAired e r).report = uncalled w.report := by
  unfold Works.keepLastAired
  repeat' split
  all_goals simp

@[simp] theorem uncalled_takeReport (e : Env) (b : ReportBody) (w : Works) :
    uncalled (w.takeReport e b).report = uncalled w.report := by
  unfold Works.takeReport
  repeat' split
  all_goals simp

@[simp] theorem uncalled_endJob (e : Env) (tag : Nat) (code : Code) (w : Works) :
    uncalled (w.endJob e tag code).report = uncalled w.report := by
  unfold Works.endJob
  repeat' split
  all_goals simp

@[simp] theorem uncalled_refuse (e : Env) (tag : Nat) (o : Origin) (callRef : Option CallRef) (content : ReportContent)
    (code : Code) (w : Works) :
    uncalled (w.refuse e tag o callRef content code).report = uncalled w.report := by
  unfold Works.refuse
  simp

@[simp] theorem uncalled_supersede (e : Env) (q : JobRequest) (w : Works) :
    uncalled (w.supersede e q).report = uncalled w.report :=
  uncalled_foldl (fun w (r : JobRec) => uncalled_endJob e r.tag .superseded w) _ w

@[simp] theorem uncalled_makeSpace (e : Env) (q : JobRequest) (w : Works) :
    uncalled (w.makeSpace e q).1.report = uncalled w.report := by
  unfold Works.makeSpace
  repeat' split
  all_goals simp

/-! ### Binding and dispatch -/

@[simp] theorem uncalled_endBinding (e : Env) (tag : Nat) (w : Works) :
    uncalled (w.endBinding e tag).report = uncalled w.report := by
  unfold Works.endBinding
  repeat' split
  all_goals simp

@[simp] theorem uncalled_continueBinding (e : Env) (tag : Nat) (w : Works) :
    uncalled (w.continueBinding e tag).report = uncalled w.report := by
  unfold Works.continueBinding
  dsimp only
  repeat' split
  all_goals simp

@[simp] theorem uncalled_expandJob (e : Env) (tag : Nat) (items : List Item) (w : Works) :
    uncalled (w.expandJob e tag items).report = uncalled w.report := by
  unfold Works.expandJob
  split <;> simp

@[simp] theorem uncalled_enterBinding (e : Env) (tag : Nat) (w : Works) :
    uncalled (w.enterBinding e tag).report = uncalled w.report := by
  unfold Works.enterBinding
  repeat' split
  all_goals simp

@[simp] theorem uncalled_dispatchOne (e : Env) (w : Works) :
    uncalled (w.dispatchOne e).report = uncalled w.report := by
  unfold Works.dispatchOne
  repeat' split
  all_goals simp

@[simp] theorem uncalled_dispatch (e : Env) (w : Works) :
    uncalled (w.dispatch e).report = uncalled w.report := by
  unfold Works.dispatch
  simp

@[simp] theorem uncalled_tryStart (e : Env) (tag : Nat) (w : Works) :
    uncalled (w.tryStart e tag).report = uncalled w.report := by
  unfold Works.tryStart
  repeat' split
  all_goals simp

@[simp] theorem uncalled_preempt (e : Env) (tag : Nat) (w : Works) :
    uncalled (w.preempt e tag).report = uncalled w.report := by
  unfold Works.preempt
  repeat' split
  all_goals simp

/-! ### What other blocks report -/

@[simp] theorem uncalled_unitReports (e : Env) (tag : Nat) (u : UnitReport) (w : Works) :
    uncalled (w.unitReports e tag u).report = uncalled w.report := by
  unfold Works.unitReports
  repeat' split
  all_goals simp

@[simp] theorem uncalled_airingEnds (e : Env) (tag : Nat) (w : Works) :
    uncalled (w.airingEnds e tag).report = uncalled w.report := by
  unfold Works.airingEnds
  repeat' split
  all_goals simp

@[simp] theorem uncalled_channelReports (e : Env) (n : Nat) (u : ChannelReport) (w : Works) :
    uncalled (w.channelReports e n u).report = uncalled w.report := by
  unfold Works.channelReports
  repeat' split
  all_goals simp

/-! ### Notices -/

@[simp] theorem uncalled_makeStale (e : Env) (tag : Nat) (w : Works) :
    uncalled (w.makeStale e tag).report = uncalled w.report := by
  unfold Works.makeStale
  repeat' split
  all_goals simp

@[simp] theorem uncalled_markLast (e : Env) (tag : Nat) (w : Works) :
    uncalled (w.markLast e tag).report = uncalled w.report := by
  unfold Works.markLast
  repeat' split
  all_goals simp

@[simp] theorem uncalled_retireJob (e : Env) (r : JobRec) (w : Works) :
    uncalled (w.retireJob e r).report = uncalled w.report := by
  unfold Works.retireJob
  split <;> simp

@[simp] theorem uncalled_noticeJob (e : Env) (kind : NoticeKind) (r : JobRec) (w : Works) :
    uncalled (w.noticeJob e kind r).report = uncalled w.report := by
  unfold Works.noticeJob
  repeat' split
  all_goals simp

@[simp] theorem uncalled_takeNotice (e : Env) (kind : NoticeKind) (slot id : Nat) (w : Works) :
    uncalled (w.takeNotice e kind slot id).report = uncalled w.report :=
  uncalled_foldl (fun w (r : JobRec) => uncalled_noticeJob e kind r w) _ w

/-! ### Requests and settling -/

@[simp] theorem uncalled_accept (e : Env) (q : JobRequest) (w : Works) :
    uncalled (w.accept e q).report = uncalled w.report := by
  unfold Works.accept
  dsimp only
  repeat' split
  all_goals simp

@[simp] theorem uncalled_takeRequest (e : Env) (q : JobRequest) (w : Works) :
    uncalled (w.takeRequest e q).report = uncalled w.report := by
  unfold Works.takeRequest
  simp

/-- No piece of work counts a presence. -/
theorem uncalled_handle (e : Env) (note : Note) (w : Works) : uncalled (handle e note w).report = uncalled w.report := by
  cases note <;> simp [handle]

/-- Settling counts no presence (R186). -/
theorem uncalled_settle (e : Env) (fuel : Nat) (w : Works) : uncalled (settle e fuel w).report = uncalled w.report := by
  induction fuel generalizing w with
  | zero => rfl
  | succ fuel ih =>
    cases work : w.agenda with
    | nil => rw [settle_of_empty e (fuel + 1) w work]
    | cons note rest => rw [settle_cons e fuel w note rest work, ih, uncalled_handle]

end Sys2Proof.Proofs.UncalledSettling
end


section
/-! The debounce timer's expiry (R17, R19, R20): the debounced presence follows the input, a rise brings the current call to
its face or is counted, and a fall retires the call that is there.  Settles O19. -/

namespace Sys2Proof.Proofs.PresenceActs

open Sys2Proof Sys2Proof.Machine Sys2Proof.Proofs.Effects Sys2Proof.Proofs.Commands Sys2Proof.Proofs.ClockAndCalls
open Sys2Proof.Proofs.JobEnds Sys2Proof.Proofs.UncalledPresence Sys2Proof.Proofs.UncalledSettling
open Sys2Proof.Proofs.Surroundings

/-- The face record once its debounce timer has expired. -/
def debounced (level : Bool) (f : FaceRec) : FaceRec := { f with presence := level, debounce := none }

/-- The node with a face record written. -/
def withFace (position : Nat) (f : FaceRec) (n : Node) : Node :=
  { n with env := { n.env with faces := n.env.faces.set position (some f) } }

/-- The level of the input decides between a rise and a fall (R17). -/
theorem debounceExpires_of_running {n : Node} {position : Nat} {f : FaceRec} (face : n.env.faces[position]? = some (some f))
    (running : f.debounce.isSome = true) :
    debounceExpires position n =
      if levelAt n.env.pins.pres position then
        presenceRises (debounced true f) (withFace position (debounced true f) n)
      else presenceFalls (debounced false f) (withFace position (debounced false f) n) := by
  have timed : f.debounce.isNone = false := by simpa [Option.isSome_iff_ne_none] using running
  simp only [debounceExpires, face, Option.join_some, timed]
  cases levelAt n.env.pins.pres position <;> rfl

/-! ### The face record -/

/-- The configuration, presence and debounce timer of a face record stand. -/
def sameFace (f g : FaceRec) : Prop := g.cfg = f.cfg ∧ g.presence = f.presence ∧ g.debounce = f.debounce

theorem face_finishWork {n : Node} {i : Nat} {f : FaceRec} (notices : List Note) (own : List JobRequest)
    (faces slots : List Nat) (delayed : Option Nat) (face : n.env.faces[i]? = some (some f)) :
    ∃ g, (finishWork notices own faces slots delayed n).env.faces[i]? = some (some g) ∧ sameFace f g :=
  (finishWork_evolves notices own faces slots delayed (.refl n.env)).faces i f face

theorem face_presenceRises {n : Node} {i : Nat} {f : FaceRec} (at_ : FaceRec) (face : n.env.faces[i]? = some (some f)) :
    ∃ g, (presenceRises at_ n).env.faces[i]? = some (some g) ∧ sameFace f g := by
  unfold presenceRises
  split
  · exact face_finishWork _ _ _ _ _ face
  · split
    · exact ⟨f, face, rfl, rfl, rfl⟩
    · exact face_finishWork _ _ _ _ _ face

theorem face_presenceFalls {n : Node} {i : Nat} {f : FaceRec} (at_ : FaceRec) (face : n.env.faces[i]? = some (some f)) :
    ∃ g, (presenceFalls at_ n).env.faces[i]? = some (some g) ∧ sameFace f g := by
  unfold presenceFalls
  split
  · exact ⟨f, face, rfl, rfl, rfl⟩
  · split
    · exact ⟨f, face, rfl, rfl, rfl⟩
    · exact face_finishWork _ _ _ _ _ face

theorem face_withFace {n : Node} {position : Nat} {f : FaceRec} (g : FaceRec) (face : n.env.faces[position]? = some (some f)) :
    (withFace position g n).env.faces[position]? = some (some g) := by
  obtain ⟨bound, -⟩ := List.getElem?_eq_some_iff.mp face
  simp [withFace, bound]

/-- After the expiry the debounced presence is the input's level. -/
theorem face_debounceExpires {n : Node} {position : Nat} {f : FaceRec} (face : n.env.faces[position]? = some (some f))
    (running : f.debounce.isSome = true) :
    ∃ g, (debounceExpires position n).env.faces[position]? = some (some g)
      ∧ sameFace (debounced (levelAt n.env.pins.pres position) f) g := by
  rw [debounceExpires_of_running face running]
  cases levelAt n.env.pins.pres position with
  | true => exact face_presenceRises _ (face_withFace _ face)
  | false => exact face_presenceFalls _ (face_withFace _ face)

/-! ### A rise (R19) -/

theorem presenceRises_of_none {n : Node} {f : FaceRec} (none : f.current = none) :
    ∃ own, presenceRises f n = finishWork [] own [] [] .none (n.bump .presenceWithoutCall) := by
  refine ⟨requestOfEntry (.presence f.cfg.number) .none f.cfg.unscheduled (selectorZones f.cfg.unscheduled.sel f.cfg), ?_⟩
  simp [presenceRises, none]

theorem presenceRises_of_call {n : Node} {f : FaceRec} {slot : Nat} {c : CallRec} (current : f.current = some slot)
    (held : n.env.callAt slot = some c) (before : c.state = .planned ∨ c.state = .due) :
    presenceRises f n = finishWork [] (riseAtCall n.env slot f.cfg c).2 [] [slot] none
      (n.setCall slot (some (riseAtCall n.env slot f.cfg c).1)) := by
  have away : c.state.atFace = false := by rcases before with state | state <;> simp [state, CallState.atFace]
  simp [presenceRises, current, held, away]

theorem atFace_iff (s : CallState) : s.atFace = true ↔ s = .atPlatform ∨ s = .closing := by
  cases s <;> simp [CallState.atFace]

theorem atFace_riseAtCall (e : Env) (slot : Nat) (f : FaceCfg) (c : CallRec) :
    (riseAtCall e slot f c).1.state.atFace = true := by
  have arrived : ((c.skipTimed f .arrival).enterPlatform e).state.atFace = true := by
    unfold CallRec.enterPlatform
    dsimp only
    split <;> rfl
  unfold riseAtCall
  dsimp only
  split
  · split <;> exact arrived
  · exact arrived

/-- A rise brings a current call in PLANNED or DUE to its face. -/
theorem callAt_presenceRises {n : Node} {f : FaceRec} {slot : Nat} {c : CallRec} (current : f.current = some slot)
    (held : n.env.callAt slot = some c) (before : c.state = .planned ∨ c.state = .due) :
    ∃ c', (presenceRises f n).env.callAt slot = some c' ∧ c'.id = c.id ∧ (c'.state = .atPlatform ∨ c'.state = .closing) := by
  rw [presenceRises_of_call current held before]
  obtain ⟨c', at_, evolves⟩ := callAt_finishWork (c := (riseAtCall n.env slot f.cfg c).1) [] (riseAtCall n.env slot f.cfg c).2
    [] [slot] none (lt_of_callAt held)
  exact ⟨c', at_, evolves.id.trans (id_riseAtCall _ _ _ _), (atFace_iff _).mp (evolves.atFace (atFace_riseAtCall _ _ _ _))⟩

/-! ### A fall (R20) -/

/-- A call retired at a fall. -/
def fallenCall (now : Instant) (c : CallRec) : CallRec :=
  if c.kind.hasDep = true ∨ c.state = .closing then
    { (c.retire now .departed) with early := decide (c.state = .atPlatform) || c.early }
  else c.retire now .finished

theorem presenceFalls_of_call {n : Node} {f : FaceRec} {slot : Nat} {c : CallRec} (current : f.current = some slot)
    (held : n.env.callAt slot = some c) (here : c.state = .atPlatform ∨ c.state = .closing) :
    presenceFalls f n =
      finishWork [.notice (.retired (fallenCall n.env.now c).state) slot c.id c.rev] [] [f.cfg.number] [] none
        (n.setCall slot (some (fallenCall n.env.now c))) := by
  have atFace : c.state.atFace = true := (atFace_iff _).mpr here
  simp only [presenceFalls, current, held, Option.bind_some, Option.map_some, atFace]
  rfl

theorem fallenCall_fields (now : Instant) (c : CallRec) :
    (fallenCall now c).id = c.id ∧ (fallenCall now c).retention = some (now + sec 600) ∧ (fallenCall now c).state.live = false
      ∧ (fallenCall now c).state = if c.kind.hasDep = true ∨ c.state = .closing then .departed else .finished := by
  unfold fallenCall
  split <;> exact ⟨rfl, rfl, rfl, rfl⟩

/-- A fall retires a current call that is at its face, and the pass after it leaves the retired record. -/
theorem callAt_presenceFalls {n : Node} {f : FaceRec} {slot : Nat} {c : CallRec} (current : f.current = some slot)
    (held : n.env.callAt slot = some c) (here : c.state = .atPlatform ∨ c.state = .closing) :
    (presenceFalls f n).env.callAt slot = some (fallenCall n.env.now c) := by
  rw [presenceFalls_of_call current held here]
  obtain ⟨c', at_, evolves⟩ := callAt_finishWork (n := n) (c := fallenCall n.env.now c)
    [.notice (.retired (fallenCall n.env.now c).state) slot c.id c.rev] [] [f.cfg.number] [] none (lt_of_callAt held)
  obtain ⟨-, -, gone, -⟩ := fallenCall_fields n.env.now c
  exact evolves.retired gone ▸ at_

/-! ### O19 -/

theorem presenceChanges_of_face {n : Node} {position : Nat} {level : Bool} {f : FaceRec}
    (changes : levelAt n.env.pins.pres position ≠ level) (face : n.env.faces[position]? = some (some f)) :
    presenceChanges position level n = { n with env := { n.env with
      pins := { n.env.pins with pres := n.env.pins.pres.set position level },
      faces := n.env.faces.set position (some { f with
        debounce := if level = f.presence then none else some (n.env.now + sec n.env.part.cfg.settings.debounce) }) } } := by
  rw [presenceChanges, if_neg changes]
  simp only [face, Option.join_some]

/-- Settles O19: the expiry is a rise or a fall; what each does to the call is followed through the pass, and the count
through the settling. -/
theorem presenceIsDebouncedAndActs : Obligations.PresenceIsDebouncedAndActs := by
  refine ⟨fun s position level f rested changes face => ?_, fun s position f _ wf face running => ⟨?_, ?_, ?_⟩⟩
  · exact exec_of_effect_rested (c := .presenceInputChange position level) (presenceChanges_of_face (n := s.node) changes face)
      rested
  · obtain ⟨g, here, cfg, presence, debounce⟩ := face_debounceExpires (n := s.node) face running
    exact ⟨_, g, exec_of_effect (c := .debounceTimerExpiry position) rfl, here, presence, debounce, cfg⟩
  · intro high none
    obtain ⟨own, rises⟩ := presenceRises_of_none (n := withFace position (debounced true f) s.node)
      (f := debounced true f) none
    have expires := debounceExpires_of_running (n := s.node) face running
    rw [if_pos high, rises] at expires
    refine ⟨_, exec_of_effect (c := .debounceTimerExpiry position) expires, ?_⟩
    rw [counter_eq_uncalled]
    exact (uncalled_settle _ _ _).trans (counter_bump_same (w := s.ws) .presenceWithoutCall wf.1)
  · refine fun slot c current held => ⟨fun high before => ?_, fun low here => ?_⟩
    · have expires := debounceExpires_of_running (n := s.node) face running
      rw [if_pos high] at expires
      obtain ⟨c', at_, id, state⟩ := callAt_presenceRises (n := withFace position (debounced true f) s.node)
        (f := debounced true f) current held before
      exact ⟨_, c', exec_of_effect (c := .debounceTimerExpiry position) expires, at_, id, state⟩
    · have expires := debounceExpires_of_running (n := s.node) face running
      rw [if_neg (by simp [low])] at expires
      obtain ⟨id, retention, -, state⟩ := fallenCall_fields s.env.now c
      exact ⟨_, _, exec_of_effect (c := .debounceTimerExpiry position) expires,
        callAt_presenceFalls (n := withFace position (debounced false f) s.node) (f := debounced false f) current held here,
        id, state, retention⟩

end Sys2Proof.Proofs.PresenceActs
end
